-- ==== Sys2Proof/Word.lean ====
section
/-! DEFINITION. The plain types every file uses: bytes, words, tags and the numbers of the L96's units. -/

namespace Sys2Proof

/-- One byte of a bank, of main memory or of a frame. -/
abbrev Byte := BitVec 8

/-- One 64-bit word (02 R27). -/
abbrev Word := BitVec 64

/-- A 4-bit tag code (02 Table 2.7). -/
abbrev Tag := BitVec 4

/-- Global number of a ledger core: core n of shed s is 8·s + n (00 Table 0.5). -/
abbrev CoreId := Fin 96

/-- Shed number, SH0 to SH11. -/
abbrev ShedId := Fin 12

/-- Owner of a session: a ledger core 0–95, or 96 for the steward (written 0x60 in 13 Table 13.8). -/
abbrev Owner := Fin 97

/-- Halyard port 0 or 1. -/
abbrev PortId := Fin 2

/-- Mailbox 0 to 7. -/
abbrev MboxId := Fin 8

/-- Submission or completion queue 0 to 63. -/
abbrev QueueId := Fin 64

/-- Number of a 64 B main-memory line: bits [36:6] of the offset in main memory. -/
abbrev LineId := BitVec 31

/-- Number of a 256 B line within one yard (11 R285). -/
abbrev YLine := BitVec 28

/-- One of the two yards (11 Table 11.1); also the home of a stream. -/
inductive Yard where
  | a
  | b
  deriving DecidableEq, Repr

end Sys2Proof
end

