-- ==== Sys2Proof/Syntax.lean ====
section
/-! DEFINITION. The commands of the L96: one constructor of `Instr` per row of spec/opcode_table.json, with the operands
each row's agent supplies. A Nymel instruction carries the core it issues on and its own encoded fields (03 Tables 3.1,
3.3 and 3.4); an event carries what its agent decides or observes (the entry the host's memory answered, the bits an
error flipped, the frame the cable delivered). -/

namespace Sys2Proof

/-- The fields of an L64 instruction beside its opcode (03 Table 3.4). -/
structure L64 where
  /-- Guard predicate index, bits [61:59]. -/
  gp : BitVec 3
  /-- Guard invert, bit [58]. -/
  gi : Bool
  /-- Operand specifier A, bits [47:32]. -/
  sa : BitVec 16
  /-- Operand specifier B, bits [31:16]. -/
  sb : BitVec 16
  /-- Operand specifier C or raw field, bits [15:0]. -/
  sc : BitVec 16
  deriving DecidableEq, Repr

/-- The two encodings of an instruction that has an S16 counterpart (03 R61, Table 3.2). -/
inductive AluForm where
  | l64 (w : L64)
  | s16 (rd rs : BitVec 4)
  deriving DecidableEq, Repr

/-- An opcode or S16 operation that no table assigns (03 R62, R82). -/
inductive Unassigned where
  | l64 (opc : BitVec 10) (w : L64)
  | s16 (op : BitVec 6) (rd rs : BitVec 4)
  deriving DecidableEq, Repr

/-- The string instructions that make progress commits (06 Table 6.8). -/
inductive StrOp where
  | smov | smova | sfil | smvt | sxlt | scmp | sfnd | schk | sxu8 | sxl1 | edit | editm
  deriving DecidableEq, Repr

/-- `WAITD` on a ledger core, or by the active steward pair for its own entry (13 R354, R356). -/
inductive WaitdForm where
  | core (c : CoreId) (w : L64)
  | steward
  deriving DecidableEq, Repr

/-- `POST` on a ledger core, or by the active steward pair for one of its slots (13 R354, R357). -/
inductive PostForm where
  | core (c : CoreId) (w : L64)
  | steward (slot : Fin 32)
  deriving DecidableEq, Repr

/-- An instruction on a journal segment, on a ledger core or by the active steward pair for its own segment (12 R312, 13 R354). -/
inductive SegForm where
  | core (c : CoreId) (w : L64)
  | steward
  deriving DecidableEq, Repr

/-- A narrow store on a ledger core, or by the active steward pair to an address of main memory, where it may be a journaled write
(12 R312). -/
inductive StoreForm where
  | core (c : CoreId) (w : L64)
  | steward (addr v : Word) (tag : Tag)
  deriving DecidableEq, Repr

/-- A detected exception: vector, CAUSE.CODE, CAUSE.OPND and FADDR (07 R188). -/
structure ExcOperand where
  vec : Fin 64
  code : BitVec 16
  opnd : BitVec 2
  faddr : Word
  deriving DecidableEq, Repr

/-- Why the steward enters vector 0 (07 Table 7.1). -/
inductive RestartCause where
  | coldStart
  | restartCommand
  | paddockRelease
  deriving DecidableEq, Repr

/-- An instruction that makes a shed-window access (10 R262): an L64 instruction by its opcode, or a short load or store. -/
inductive WindowAccess where
  | l64 (opc : BitVec 10) (w : L64)
  | short (store : Bool) (base : BitVec 2) (g : BitVec 4) (disp : BitVec 7)
  deriving DecidableEq, Repr

/-- What port A does to the same word in the same SCLK (10 Table 10.3). -/
inductive PortAUse where
  | none
  | read
  | write
  deriving DecidableEq, Repr

/-- A use by port A of another core's bank word at the SCLK in which the shed-window access of an instruction falls, and in how many SCLK
one after another (10 R262, R264, R268). `addr` is the word's shed-window address. -/
structure PortHit where
  addr : Nat
  use : PortAUse
  times : Nat
  deriving DecidableEq, Repr

/-- What one microword meets as the engine runs it (09 Tables 9.2 to 9.4): whether what it waits for has come, whether its condition
holds, the key that a dispatch selects, and the result of the units where it has one, 64 data bits and a tag. -/
structure MicroStep where
  ready : Bool
  cond : Bool
  key : BitVec 4
  result : Option (BitVec 68)
  deriving DecidableEq, Repr

/-- What a march finds in a bank's arrays (10 R272): rows that fail, spare rows that fail, and rows of a control store or of L1 arrays
that fail. -/
structure MarchReport where
  rows : List (BitVec 14)
  spares : List (Fin 32)
  others : Nat
  deriving DecidableEq, Repr

/-- Bits flipped in the stored chunk at one position of a stripe (11 R291, R295). -/
structure ChunkError where
  pos : Fin 10
  flips : BitVec 256
  deriving DecidableEq, Repr

/-- Which agent writes a mailbox register (13 Table 13.12). -/
inductive Agent where
  | pcie
  | smbus
  deriving DecidableEq, Repr

/-- Register spaces that a write without a row of its own reaches (00 R5): the host's BAR0, BAR2 and configuration space
(13 R341), and what the steward writes: the dispatch-table entry of an owner (13 Table 13.9), DBGCTL.EN of a core and the counts
of BANKST of a core (10 Table 10.9). The offset of these last three is the number of the owner or core. -/
inductive RegSpace where
  | bar0
  | bar2
  | config
  | dispatch
  | debug
  | bank
  deriving DecidableEq, Repr

/-- The packet error code of an SMBus write (13 R361). -/
inductive Pec where
  | absent
  | good
  | bad
  deriving DecidableEq, Repr

/-- SMBus command 0x02 (13 Table 13.13). -/
inductive SmbTransfer where
  | read (n : Nat)
  | write (data : List Byte)
  deriving DecidableEq, Repr

/-- SMBus command 0x04 (13 Table 13.13). -/
inductive SmbSem where
  | read
  | write (v : Byte)
  deriving DecidableEq, Repr

/-- A frame as the port's physical layer hands it over: its bytes, and whether a codeword it touches was uncorrectable
(15 R381). -/
structure FrameIn where
  bytes : List Byte
  codewordBad : Bool
  deriving DecidableEq, Repr

/-- Why a paired port goes down (15 R387, 17 Table 17.6 class 0x20). -/
inductive DownReason where
  | lock
  | silence
  | replayLimit
  deriving DecidableEq, Repr

/-- Where the Gate finds a parity error (17 R417). -/
inductive GateParity where
  | submission
  | completion
  | dispatchTable
  | sessionWord
  deriving DecidableEq, Repr

/-- What ends the module's service (17 Table 17.6 class 0x54). -/
inductive FatalCode where
  | steward
  | gate
  | aisle
  | bothYards
  deriving DecidableEq, Repr

/-- One period's monitor readings (18 Table 18.8): °C, mV, mV over PMBus, 0.01 % of baseline, 0.1 W mean over 1 ms, and
the regulators at their current limit, one bit per shed. -/
structure Readings where
  thermal : List Int
  volt : List Nat
  pmbus : List Nat
  process : List Nat
  power : Nat
  ilimit : BitVec 12
  deriving DecidableEq, Repr

/-- Policy fields (18 Table 18.9). -/
structure Policy where
  pcap : Nat
  tcase : Nat
  ringlog : Nat
  sclkmax : Nat
  deriving DecidableEq, Repr

/-- What ST1 finds: whether the boot image verifies, the anti-rollback level it carries, whether the policy block passes its check, the
containers in flash, byte for byte, and under BOOT_SEL = 0b10 what the external flash holds from address 0 on (18 R428, R448, 09 R252, 14
R373, 19 R455). -/
structure BootReport where
  imageOk : Bool
  level : Nat
  policyOk : Bool
  containers : List (List Byte)
  external : List Byte
  deriving DecidableEq, Repr

/-- TAP instructions (19 R459). -/
inductive Jtag where
  | bypass | sample | extest | idcode | clamp | highz | dbgacc
  deriving DecidableEq, Repr

/-- What training and the cold march find at ST3: yards with a channel that trains only at 3200 MT/s, channels that fail
at both rates, and bank rows and spare rows that fail the march (11 R283, 10 R272). -/
structure TrainReport where
  slowA : Bool
  slowB : Bool
  failA : List (Fin 11)
  failB : List (Fin 11)
  badRows : List (CoreId × BitVec 14)
  badSpares : List (CoreId × Fin 32)
  deriving DecidableEq, Repr

/-- The commands of the L96, one constructor per row of spec/opcode_table.json, in the table's order. -/
inductive Instr where
  /-- MOV (R98). Copies operand B to A with its tag and changes no flag. -/
  | mov (c : CoreId) (f : AluForm)
  /-- ADD (R98). Adds two 64-bit operands mod 2^64 and sets Z, N, V and C. -/
  | add (c : CoreId) (f : AluForm)
  /-- SUB (R98). Subtracts C from B mod 2^64 and sets Z, N, V and C as a borrow. -/
  | sub (c : CoreId) (f : AluForm)
  /-- ADC (R98). Adds two operands plus FLAGS.C and sets Z, N, V and C. -/
  | adc (c : CoreId) (f : AluForm)
  /-- SBC (R98). Subtracts C and the borrow in FLAGS.C from B and sets Z, N, V and C. -/
  | sbc (c : CoreId) (f : AluForm)
  /-- NEG (R98). Writes 0 minus x and sets Z, N, V and C. -/
  | neg (c : CoreId) (f : AluForm)
  /-- CMP (R98). Sets flags from A minus B without writing a result and never raises INTEGER_OVERFLOW. -/
  | cmp (c : CoreId) (f : AluForm)
  /-- AND (R98). Writes the bitwise AND of two operands and sets Z and N. -/
  | and (c : CoreId) (f : AluForm)
  /-- OR (R98). Writes the bitwise OR of two operands and sets Z and N. -/
  | or (c : CoreId) (f : AluForm)
  /-- XOR (R98). Writes the bitwise XOR of two operands and sets Z and N. -/
  | xor (c : CoreId) (f : AluForm)
  /-- ANDN (R98). Writes x AND NOT y and sets Z and N. -/
  | andn (c : CoreId) (f : AluForm)
  /-- NOT (R98). Writes the bitwise complement of x and sets Z and N. -/
  | not (c : CoreId) (f : AluForm)
  /-- CLZ (R98). Writes the count of leading zero bits of x. -/
  | clz (c : CoreId) (w : L64)
  /-- POPC (R98). Writes the count of one bits of x. -/
  | popc (c : CoreId) (w : L64)
  /-- SHL (R101). Shifts left by an unsigned count and sets C from the last bit shifted out. -/
  | shl (c : CoreId) (f : AluForm)
  /-- SHRL (R101). Shifts right logically by an unsigned count and sets C from the last bit shifted out. -/
  | shrl (c : CoreId) (f : AluForm)
  /-- SHRA (R101). Shifts right arithmetically by an unsigned count and sets C from the last bit shifted out. -/
  | shra (c : CoreId) (f : AluForm)
  /-- ROL (R102). Rotates left by the count mod 64. -/
  | rol (c : CoreId) (f : AluForm)
  /-- ROR (R102). Rotates right by the count mod 64. -/
  | ror (c : CoreId) (f : AluForm)
  /-- MUL (R106). Starts a signed 128-bit multiply whose product reaches MH:ML L SCLK later. -/
  | mul (c : CoreId) (f : AluForm)
  /-- MULW (R106). Starts an unsigned 128-bit multiply whose product reaches MH:ML L SCLK later. -/
  | mulw (c : CoreId) (f : AluForm)
  /-- PRODUCT_WRITTEN (R106). The outstanding multiplier product is written to MH:ML. -/
  | productWritten (c : CoreId)
  /-- MWAIT (R108). Stalls until the outstanding product is written. -/
  | mwait (c : CoreId) (f : AluForm)
  /-- MFMH (R107). Copies MH, or the value before an unfinished multiply, and sets MEARLY when early. -/
  | mfmh (c : CoreId) (f : AluForm)
  /-- MFML (R107). Copies ML, or the value before an unfinished multiply, and sets MEARLY when early. -/
  | mfml (c : CoreId) (f : AluForm)
  /-- DIV (R110). Divides signed values, writing the quotient to A and the remainder to MH at the final commit. -/
  | div (c : CoreId) (w : L64)
  /-- DIVU (R110). Divides unsigned values, writing the quotient to A and the remainder to MH at the final commit. -/
  | divu (c : CoreId) (w : L64)
  /-- LDB (R104). Loads 1 B zero-extended and takes the tag of the word loaded from. -/
  | ldb (c : CoreId) (w : L64)
  /-- LDH (R104). Loads 2 B zero-extended and takes the tag of the word or words loaded from. -/
  | ldh (c : CoreId) (w : L64)
  /-- LDW (R104). Loads 4 B zero-extended and takes the tag of the word or words loaded from. -/
  | ldw (c : CoreId) (w : L64)
  /-- LDBS (R104). Loads 1 B sign-extended and takes the tag of the word loaded from. -/
  | ldbs (c : CoreId) (w : L64)
  /-- LDHS (R104). Loads 2 B sign-extended and takes the tag of the word or words loaded from. -/
  | ldhs (c : CoreId) (w : L64)
  /-- LDWS (R104). Loads 4 B sign-extended and takes the tag of the word or words loaded from. -/
  | ldws (c : CoreId) (w : L64)
  /-- STB (R105). Stores the low byte of the source and tags the word with the source tag. -/
  | stb (f : StoreForm)
  /-- STH (R105). Stores the low 2 B of the source and tags the word or words with the source tag. -/
  | sth (f : StoreForm)
  /-- STW (R105). Stores the low 4 B of the source and tags the word or words with the source tag. -/
  | stw (f : StoreForm)
  /-- MFS (R19). Reads a special register, selected by number, into a G register. -/
  | mfs (c : CoreId) (w : L64)
  /-- MTS (R22). Writes a special register selected by number, subject to the SYS checks. -/
  | mts (c : CoreId) (w : L64)
  /-- DET_SLOT_RESERVED (R231). Both yards hold a deterministic slot for the core, so the MTS that sets CORECFG.DET completes. -/
  | detSlotReserved (c : CoreId)
  /-- MOVI (R66). S16 form that writes a sign-extended 8-bit immediate tagged BIN. -/
  | movi (c : CoreId) (rd : BitVec 4) (simm : BitVec 8)
  /-- ADDI (R66). S16 form that adds a sign-extended 8-bit immediate as ADD does. -/
  | addi (c : CoreId) (rd : BitVec 4) (simm : BitVec 8)
  /-- SHORT_LOAD_STORE (R64). S16 form that moves 8 B between a G register and memory at C1–C4 plus disp7 × 8. -/
  | shortLoadStore (c : CoreId) (store : Bool) (base : BitVec 2) (g : BitVec 4) (disp : BitVec 7)
  /-- SHORT_BRANCH (R65). S16 branch on a predicate with an 8-bit halfword displacement and an always-executed delay slot. -/
  | shortBranch (c : CoreId) (invert : Bool) (p : BitVec 3) (simm : BitVec 8)
  /-- SHORT_PCMP (R66). S16 form that sets a predicate from a signed compare of a G register with zero. -/
  | shortPcmp (c : CoreId) (pd : BitVec 3) (cond : BitVec 3) (gs : BitVec 4) (low : BitVec 2)
  /-- UNASSIGNED_OPCODE (R82). An unassigned L64 opcode or S16 operation raises UNDEFINED_INSTRUCTION with no state changed. -/
  | unassignedOpcode (c : CoreId) (u : Unassigned)
  /-- DADD (R140). Adds packed field B into packed field A at one final commit. -/
  | dadd (c : CoreId) (w : L64)
  /-- DSUB (R140). Subtracts packed field B from packed field A at one final commit. -/
  | dsub (c : CoreId) (w : L64)
  /-- DMUL (R140). Multiplies packed field A by packed field B at one final commit. -/
  | dmul (c : CoreId) (w : L64)
  /-- DDIV (R141). Divides packed fields with a rounding digit, or writes the remainder. -/
  | ddiv (c : CoreId) (w : L64)
  /-- DMOV (R140). Copies the value of packed field B into A. -/
  | dmov (c : CoreId) (w : L64)
  /-- DMOVU (R143). Copies the magnitude of B into A with sign 0xF. -/
  | dmovu (c : CoreId) (w : L64)
  /-- DCMP (R140). Compares two packed values and sets FLAGS.DCC. -/
  | dcmp (c : CoreId) (w : L64)
  /-- DSRD (R142). Scales B by 10^N into A, rounding under FPCTL.RM. -/
  | dsrd (c : CoreId) (w : L64)
  /-- DTOB (R140). Converts a packed field to a 64-bit binary integer. -/
  | dtob (c : CoreId) (w : L64)
  /-- DTOBW (R140). Converts a packed field to a 128-bit binary integer. -/
  | dtobw (c : CoreId) (w : L64)
  /-- BTOD (R140). Converts a signed 64-bit integer to a packed field. -/
  | btod (c : CoreId) (w : L64)
  /-- BTODW (R140). Converts a signed 128-bit integer to a packed field. -/
  | btodw (c : CoreId) (w : L64)
  /-- DPAK (R140). Converts a zoned field to a packed field. -/
  | dpak (c : CoreId) (w : L64)
  /-- DUNP (R140). Converts a packed field to a zoned field. -/
  | dunp (c : CoreId) (w : L64)
  /-- DTST (R144). Validates a packed or zoned field and sets DCC, never raising DECIMAL_DATA. -/
  | dtst (c : CoreId) (w : L64)
  /-- SMOV (R156). Moves n bytes in ascending order, byte by byte, committing every 64 B. -/
  | smov (c : CoreId) (w : L64)
  /-- SMOVA (R157). Moves the n bytes B held at issue, for any overlap. -/
  | smova (c : CoreId) (w : L64)
  /-- SFIL (R158). Fills n bytes with the fill byte. -/
  | sfil (c : CoreId) (w : L64)
  /-- SMVT (R159). Moves n bytes, translating each through a 256 B table. -/
  | smvt (c : CoreId) (w : L64)
  /-- SXLT (R159). Translates n bytes in place through a 256 B table. -/
  | sxlt (c : CoreId) (w : L64)
  /-- SCMP (R161). Compares n positions with padding and sets FLAGS. -/
  | scmp (c : CoreId) (w : L64)
  /-- SFND (R163). Finds the first byte in a class and writes its offset. -/
  | sfnd (c : CoreId) (w : L64)
  /-- SCHK (R163). Finds the first byte not in a class and writes its offset. -/
  | schk (c : CoreId) (w : L64)
  /-- SXU8 (R164). Transcodes Latin-1 to UTF-8 within a capacity. -/
  | sxu8 (c : CoreId) (w : L64)
  /-- SXL1 (R166). Transcodes UTF-8 to Latin-1 with replacement or stop. -/
  | sxl1 (c : CoreId) (w : L64)
  /-- EDIT (R171). Prints a packed amount through an edit pattern in place. -/
  | edit (c : CoreId) (w : L64)
  /-- EDITM (R174). Acts as EDIT and also writes the amount offset. -/
  | editm (c : CoreId) (w : L64)
  /-- SCAN (R176). Parses text against an edit pattern into a packed field and sets P6 and P7. -/
  | scan (c : CoreId) (w : L64)
  /-- PROGRESS_COMMIT (R243). A resumable instruction commits one unit, RESUME and its progress registers in one SCLK. -/
  | progressCommit (c : CoreId) (op : StrOp) (w : L64)
  /-- FADD (R126). Adds binary64 values with one rounding. -/
  | fadd (c : CoreId) (w : L64)
  /-- FSUB (R126). Subtracts binary64 values with one rounding. -/
  | fsub (c : CoreId) (w : L64)
  /-- FMUL (R126). Multiplies binary64 values with one rounding. -/
  | fmul (c : CoreId) (w : L64)
  /-- FDIV (R126). Divides binary64 values as a long micro-coded operation. -/
  | fdiv (c : CoreId) (w : L64)
  /-- FSQRT (R126). Takes the binary64 square root as a long operation. -/
  | fsqrt (c : CoreId) (w : L64)
  /-- FMA (R126). Computes A × B + C in binary64 with one rounding. -/
  | fma (c : CoreId) (w : L64)
  /-- FCMP (R127). Compares binary64 values and sets FLAGS. -/
  | fcmp (c : CoreId) (w : L64)
  /-- FABS (R124). Clears the sign bit of a binary64 value. -/
  | fabs (c : CoreId) (w : L64)
  /-- FNEG (R124). Inverts the sign bit of a binary64 value. -/
  | fneg (c : CoreId) (w : L64)
  /-- FFROMI (R126). Converts a signed 64-bit integer to binary64. -/
  | ffromi (c : CoreId) (w : L64)
  /-- FTOI (R128). Rounds binary64 to a signed 64-bit integer. -/
  | ftoi (c : CoreId) (w : L64)
  /-- FRND (R126). Rounds binary64 to an integral value. -/
  | frnd (c : CoreId) (w : L64)
  /-- FCLASS (R126). Writes the class mask of a binary64 value. -/
  | fclass (c : CoreId) (w : L64)
  /-- DFADD (R126). Adds decimal64 values. -/
  | dfadd (c : CoreId) (w : L64)
  /-- DFSUB (R126). Subtracts decimal64 values. -/
  | dfsub (c : CoreId) (w : L64)
  /-- DFMUL (R126). Multiplies decimal64 values. -/
  | dfmul (c : CoreId) (w : L64)
  /-- DFDIV (R126). Divides decimal64 values as a long operation. -/
  | dfdiv (c : CoreId) (w : L64)
  /-- DFSQRT (R126). Takes the decimal64 square root as a long operation. -/
  | dfsqrt (c : CoreId) (w : L64)
  /-- DFMA (R126). Computes a fused multiply-add in decimal64. -/
  | dfma (c : CoreId) (w : L64)
  /-- DFCMP (R127). Compares decimal64 values by value and sets FLAGS. -/
  | dfcmp (c : CoreId) (w : L64)
  /-- DFABS (R124). Clears the sign of a decimal64 value. -/
  | dfabs (c : CoreId) (w : L64)
  /-- DFNEG (R124). Inverts the sign of a decimal64 value. -/
  | dfneg (c : CoreId) (w : L64)
  /-- DFFROMI (R126). Converts a signed integer to decimal64. -/
  | dffromi (c : CoreId) (w : L64)
  /-- DFTOI (R128). Rounds decimal64 to a signed 64-bit integer. -/
  | dftoi (c : CoreId) (w : L64)
  /-- DFRND (R126). Rounds decimal64 to an integral value. -/
  | dfrnd (c : CoreId) (w : L64)
  /-- DFQUA (R126). Quantizes decimal64 to the exponent of C. -/
  | dfqua (c : CoreId) (w : L64)
  /-- DFCLASS (R126). Writes the class mask of a decimal64 value. -/
  | dfclass (c : CoreId) (w : L64)
  /-- DQADD (R126). Adds decimal128 values. -/
  | dqadd (c : CoreId) (w : L64)
  /-- DQSUB (R126). Subtracts decimal128 values. -/
  | dqsub (c : CoreId) (w : L64)
  /-- DQMUL (R126). Multiplies decimal128 values. -/
  | dqmul (c : CoreId) (w : L64)
  /-- DQDIV (R126). Divides decimal128 values as a long operation. -/
  | dqdiv (c : CoreId) (w : L64)
  /-- DQSQRT (R126). Takes the decimal128 square root as a long operation. -/
  | dqsqrt (c : CoreId) (w : L64)
  /-- DQFMA (R126). Computes a fused multiply-add in decimal128. -/
  | dqfma (c : CoreId) (w : L64)
  /-- DQCMP (R127). Compares decimal128 values and sets FLAGS. -/
  | dqcmp (c : CoreId) (w : L64)
  /-- DQABS (R124). Clears the sign of a decimal128 value. -/
  | dqabs (c : CoreId) (w : L64)
  /-- DQNEG (R124). Inverts the sign of a decimal128 value. -/
  | dqneg (c : CoreId) (w : L64)
  /-- DQFROMI (R126). Converts a signed integer to decimal128. -/
  | dqfromi (c : CoreId) (w : L64)
  /-- DQTOI (R128). Rounds decimal128 to a signed 64-bit integer. -/
  | dqtoi (c : CoreId) (w : L64)
  /-- DQRND (R126). Rounds decimal128 to an integral value. -/
  | dqrnd (c : CoreId) (w : L64)
  /-- DQQUA (R126). Quantizes decimal128 to the exponent of C. -/
  | dqqua (c : CoreId) (w : L64)
  /-- DQCLASS (R126). Writes the class mask of a decimal128 value. -/
  | dqclass (c : CoreId) (w : L64)
  /-- FTODF (R126). Converts binary64 to decimal64, rounded. -/
  | ftodf (c : CoreId) (w : L64)
  /-- DFTOF (R126). Converts decimal64 to binary64, rounded. -/
  | dftof (c : CoreId) (w : L64)
  /-- DFTODQ (R126). Converts decimal64 to decimal128 exactly. -/
  | dftodq (c : CoreId) (w : L64)
  /-- DQTODF (R126). Converts decimal128 to decimal64, rounded. -/
  | dqtodf (c : CoreId) (w : L64)
  /-- FTODQ (R126). Converts binary64 to decimal128, rounded. -/
  | ftodq (c : CoreId) (w : L64)
  /-- DQTOF (R126). Converts decimal128 to binary64, rounded. -/
  | dqtof (c : CoreId) (w : L64)
  /-- PTODQ (R126). Converts a 16 B packed field to decimal128 exactly. -/
  | ptodq (c : CoreId) (w : L64)
  /-- DQTOP (R128). Rounds decimal128 to an integer and writes a 16 B packed field. -/
  | dqtop (c : CoreId) (w : L64)
  /-- FP_RESULT_WRITTEN (R129). A pipelined floating-point result lands in its destination at its latency. -/
  | fpResultWritten (c : CoreId)
  /-- CLD (R17). Loads a capability from a CAPL/CAPH pair into a C register. -/
  | cld (c : CoreId) (w : L64)
  /-- CST (R41). Stores a C register as CAPL/CAPH, or as BIN words when it is invalid. -/
  | cst (c : CoreId) (w : L64)
  /-- CMOV (R464). Copies a C register with its validity. -/
  | cmov (c : CoreId) (w : L64)
  /-- CGETA (R464). Reads the cursor of a capability into a G register. -/
  | cgeta (c : CoreId) (w : L64)
  /-- CGETB (R464). Reads the decoded base of a capability. -/
  | cgetb (c : CoreId) (w : L64)
  /-- CGETT (R464). Reads the decoded top mod 2^64 and sets FLAGS.C when the top is 2^64. -/
  | cgett (c : CoreId) (w : L64)
  /-- CGETP (R464). Reads the permissions, KEY and OTYPE of a capability. -/
  | cgetp (c : CoreId) (w : L64)
  /-- CSETA (R464). Sets the cursor, making the register invalid when the cursor is unrepresentable. -/
  | cseta (c : CoreId) (w : L64)
  /-- CINC (R464). Moves the cursor by a signed amount, making the register invalid when unrepresentable. -/
  | cinc (c : CoreId) (w : L64)
  /-- CSETB (R40). Derives rounded-out bounds from the cursor and a length. -/
  | csetb (c : CoreId) (w : L64)
  /-- CSETBX (R40). Derives exact bounds, refusing when rounding is needed. -/
  | csetbx (c : CoreId) (w : L64)
  /-- CNARROW (R40). Derives rounded-in bounds and writes the bytes lost. -/
  | cnarrow (c : CoreId) (w : L64)
  /-- CPERM (R464). Masks the permission bits of a capability. -/
  | cperm (c : CoreId) (w : L64)
  /-- CKEY (R464). Sets the key of a capability under SYS. -/
  | ckey (c : CoreId) (w : L64)
  /-- CSEAL (R40). Seals a capability with the cursor of the sealing capability as OTYPE. -/
  | cseal (c : CoreId) (w : L64)
  /-- CUNSEAL (R40). Unseals a capability whose OTYPE matches the sealing cursor. -/
  | cunseal (c : CoreId) (w : L64)
  /-- CMFS (R20). Copies HPCC, HDCC or PCC into a C register with its validity. -/
  | cmfs (c : CoreId) (w : L64)
  /-- CMTS (R20). Writes HPCC or HDCC from a C register under SYS. -/
  | cmts (c : CoreId) (w : L64)
  /-- CEQ (R464). Sets a predicate when two capabilities agree in all 129 bits. -/
  | ceq (c : CoreId) (w : L64)
  /-- TAGGET (R466). Reports the stored tag of one word without interpreting it. -/
  | tagget (c : CoreId) (w : L64)
  /-- TAGSET (R34). Retags one aligned word with a permitted code. -/
  | tagset (c : CoreId) (w : L64)
  /-- TAGCODE (R97). Tags a range of up to 4,096 B as CODE under SYS. -/
  | tagcode (c : CoreId) (w : L64)
  /-- BR (R84). Branches by a signed halfword displacement after one delay slot. -/
  | br (c : CoreId) (w : L64)
  /-- BRL (R85). Branches and links into C14 after one delay slot. -/
  | brl (c : CoreId) (w : L64)
  /-- JMP (R89). Jumps through a capability after checking its validity, sealing and X. -/
  | jmp (c : CoreId) (w : L64)
  /-- JMPL (R85). Jumps through a capability and links into its B register. -/
  | jmpl (c : CoreId) (w : L64)
  /-- RETX (R205). Returns from depth d to depth d − 1, restoring the shadow slots. -/
  | retx (c : CoreId) (w : L64)
  /-- TRAP (R188). Completes and then enters vector 32 + n at rank 10. -/
  | trap (c : CoreId) (w : L64)
  /-- PCMP (R463). Sets a predicate from a signed or unsigned compare. -/
  | pcmp (c : CoreId) (w : L64)
  /-- PLOG (R463). Sets a predicate from a truth table of two predicates. -/
  | plog (c : CoreId) (w : L64)
  /-- PFLG (R463). Sets a predicate from a FLAGS condition. -/
  | pflg (c : CoreId) (w : L64)
  /-- IFLUSH (R95). Discards fetched bytes and L1 I-cache lines, and resets the predictor. -/
  | iflush (c : CoreId) (w : L64)
  /-- FENCE (R227). Waits until the store buffer is empty and every earlier access is performed. -/
  | fence (c : CoreId) (w : L64)
  /-- TAS (R112). Atomically tests a byte and sets it to 0xFF. -/
  | tas (c : CoreId) (w : L64)
  /-- BTAS (R112). Bank test-and-set on the own bank or the shed window. -/
  | btas (c : CoreId) (w : L64)
  /-- BADD (R112). Atomically adds to a bank word and returns the old value. -/
  | badd (c : CoreId) (w : L64)
  /-- BSWP (R112). Atomically swaps a bank word and returns the old value. -/
  | bswp (c : CoreId) (w : L64)
  /-- LRSV (R115). Loads a main-memory word and sets a reservation on its granule. -/
  | lrsv (c : CoreId) (w : L64)
  /-- STCN (R116). Stores only when the reservation holds, and sets a predicate. -/
  | stcn (c : CoreId) (w : L64)
  /-- JOPEN (R314). Draws a segment number, reserves ring space and opens a journal segment. -/
  | jopen (f : SegForm)
  /-- SEAL (R316). Drains, requests the seal and waits for the mirror acknowledgement or the fence. -/
  | seal (f : SegForm)
  /-- SEALA (R318). Drains and requests the seal, then closes the segment without waiting. -/
  | seala (f : SegForm)
  /-- JDROP (R319). Drains and rolls the open segment back. -/
  | jdrop (f : SegForm)
  /-- WAITD (R356). Takes the oldest untaken dispatch descriptor, or waits for one. -/
  | waitd (f : WaitdForm)
  /-- POST (R357). Hands the slot's result summary to the Gate and frees the slot. -/
  | post (f : PostForm)
  /-- SIGNAL (R214). Places the sender and a value in a core's peer queue, waiting while it is full. -/
  | signal (c : CoreId) (w : L64)
  /-- NOP (R81). Does nothing for 1 SCLK. -/
  | nop (c : CoreId) (w : L64)
  /-- STORE_BUFFER_DRAIN (R226). The oldest store-buffer entry is written to L2 and the store is performed. -/
  | storeBufferDrain (c : CoreId)
  /-- L2_MISS_FILL (R225). The line of an L2 miss arrives from another shed or from main memory. -/
  | l2MissFill (shed : ShedId) (line : LineId) (bad : BitVec 8)
  /-- KEY_CACHE_FILL (R308). An attribute byte arrives for a key-cache miss held in AG. -/
  | keyCacheFill (shed : ShedId) (page : BitVec 25)
  /-- REF_CHG_SET_REQUEST (R309). A yard sets REF or CHG in the attribute table at a shed's request. -/
  | refChgSetRequest
  /-- INTERRUPT_RECOGNITION (R192). A pending interrupt is recognised once every condition holds. -/
  | interruptRecognition (c : CoreId)
  /-- SYNCHRONOUS_EXCEPTION_ENTRY (R196). A detected exception enters its vector, and the first handler instruction issues 12 SCLK later. -/
  | synchronousExceptionEntry (c : CoreId) (e : ExcOperand)
  /-- DOUBLE_EXCEPTION (R209). An exception detected at FDEPTH = 3 stops the core and notifies the steward. -/
  | doubleException (c : CoreId) (e : ExcOperand)
  /-- PADDOCK_DUMP (R210). The steward writes the paddock dump, rolls back the open segment and puts the core in paddock. -/
  | paddockDump (c : CoreId)
  /-- RESTART_ENTRY (R211). The steward enters vector 0 of a stopped core with its reset state. -/
  | restartEntry (c : CoreId) (cause : RestartCause)
  /-- TIMER_MATCH (R212). TIMER reaches TCMP and the TIMER interrupt becomes pending. -/
  | timerMatch (c : CoreId)
  /-- STEWARD_SIGNAL (R191). The steward latches an interrupt with a code and an argument on a core. -/
  | stewardSignal (c : CoreId) (code : BitVec 16) (arg : Word)
  /-- CONTROL_STORE_ERROR (R247). A microword that fails parity or form stops the core and is reported to the steward. -/
  | controlStoreError (c : CoreId) (flips : List (BitVec 13 × BitVec 136)) (trail : List MicroStep)
  /-- CONTROL_STORE_RELOAD (R248). The steward rewrites and reads back the 64-word block, then releases the core. -/
  | controlStoreReload (c : CoreId) (first second : List (BitVec 6 × BitVec 136))
  /-- SHED_WINDOW_ACCESS (R262). Port B performs a shed-window load, store or atomic on another core's bank. -/
  | shedWindowAccess (c : CoreId) (acc : WindowAccess) (hits : List PortHit)
  /-- COMMIT_WORD_REPRESENTED (R268). A refused word of a micro-coded commit is presented again up to 16 times. -/
  | commitWordRepresented (c : CoreId) (addr : Word) (data : Word) (tag : Tag) (busy : Bool)
  /-- SECDED_CORRECTION (R259). A single-bit error is corrected and written back, or a double-bit error is made POISON. -/
  | secdedCorrection (c : CoreId) (word : BitVec 16) (double : Bool)
  /-- BANK_SCRUB_ROW (R263). The bank scrubber checks one row per 1,024 granted port-B SCLK. -/
  | bankScrubRow (c : CoreId) (errs : List (BitVec 2 × Bool))
  /-- MARCH_STRIPE (R274). A preserving march copies, tests and restores one 4 KiB stripe. -/
  | marchStripe (c : CoreId) (stripe : BitVec 7) (failed : List (BitVec 7)) (spares : List (Fin 32))
  /-- ROW_REPAIR_TRIGGER (R415). Over 4 corrections in one row within 1 s starts a preserving march of its stripe. -/
  | rowRepairTrigger (c : CoreId) (row : BitVec 14)
  /-- SHED_RETENTION_ENTER (R438). The steward puts an idle shed's memories into retention and its logic off. -/
  | shedRetentionEnter (shed : ShedId)
  /-- SHED_WAKE (R271). The steward wakes a shed, compares its control stores and releases its cores. -/
  | shedWake (shed : ShedId)
  /-- LINE_READ (R293). A yard reads a line from nine of its ten chunks, rebuilding and checking them. -/
  | lineRead (y : Yard) (n : YLine) (errs : List ChunkError)
  /-- LATE_CHUNK (R293). A tenth chunk that arrives late and differs is rewritten and counted. -/
  | lateChunk (y : Yard) (n : YLine) (pos : Fin 10) (differs : Bool)
  /-- LINE_WRITE (R294). A yard writes a full line, or merges a partial write into the stripe. -/
  | lineWrite (y : Yard) (n : YLine) (off : BitVec 8) (data : List Byte) (tags : List Tag)
  /-- DIRECTORY_READ_MISS (R280). The directory serves a read miss from a shed, recalling from an owner when needed. -/
  | directoryReadMiss (shed : ShedId) (line : LineId)
  /-- DIRECTORY_OWNERSHIP (R280). The directory grants M to a shed after invalidating the other sharers or the owner. -/
  | directoryOwnership (shed : ShedId) (line : LineId)
  /-- DIRECTORY_EVICTION (R280). A shed evicts a line and the directory removes it. -/
  | directoryEviction (shed : ShedId) (line : LineId)
  /-- DIRECTORY_REPLACEMENT (R280). Replacing a directory entry recalls the line from every shed. -/
  | directoryReplacement (line : LineId)
  /-- CHANNEL_FAILED (R297). A yard declares a channel failed and stops accessing it. -/
  | channelFailed (y : Yard) (ch : Fin 11)
  /-- REBUILD_START (R299). The steward starts a rebuild onto the free spare. -/
  | rebuildStart (y : Yard)
  /-- REBUILD_STEP (R299). One line's failed chunk is rebuilt onto the spare and the pointer advances. -/
  | rebuildStep (y : Yard) (errs : List ChunkError)
  /-- PATROL_SCRUB_LINE (R304). The patrol scrubber reads and corrects one line. -/
  | patrolScrubLine (y : Yard) (errs : List ChunkError) (back : BitVec 256)
  /-- YARD_INITIALISATION (R306). The yard finishes writing every line as UNINIT with valid checks. -/
  | yardInitialisation (y : Yard) (back : List (YLine × BitVec 256))
  /-- CLAIM_REQUEST (R320). A journaled write sends a claim request for an unclaimed line. -/
  | claimRequest (o : Owner) (line : LineId)
  /-- CLAIM_GRANT (R320). The yard captures undo and grants the line in M, marked with the segment. -/
  | claimGrant (o : Owner) (line : LineId)
  /-- CLAIM_TIMEOUT (R323). The 20 µs claim timeout expires and the younger segment is rolled back. -/
  | claimTimeout (o : Owner) (line : LineId)
  /-- SEGMENT_ROLLBACK (R336). The undo copies are written back line by line, then slots, claims and the reservation are freed. -/
  | segmentRollback (segno : BitVec 48) (bad : List (LineId × BitVec 8))
  /-- SEAL_POINT (R316). The home yard accepts the seal request and the segment stops accepting writes. -/
  | sealPoint (o : Owner)
  /-- SEGMENT_RECORD_HANDOVER (R327). The yards form the record, write it to the home ring and hand it to Halyard. -/
  | segmentRecordHandover (segno : BitVec 48)
  /-- RING_MARK_CROSSING (R335). Ring free space crosses 32 MiB or 64 MiB, holding or resuming dispatch. -/
  | ringMarkCrossing (y : Yard)
  /-- STREAM_RECORD_COPY (R338). The Gate copies one acknowledged record to the host journal ring. -/
  | streamRecordCopy (y : Yard)
  /-- STREAM_CONS_WRITE (R339). The host writes CONS, which is accepted or ignored and logged. -/
  | streamConsWrite (y : Yard) (v : Word)
  /-- SQ_TAIL_DOORBELL (R343). A tail doorbell exposes and timestamps new submission entries. -/
  | sqTailDoorbell (q : QueueId) (v : BitVec 16)
  /-- CQ_HEAD_DOORBELL (R345). A head doorbell frees completion-queue entries. -/
  | cqHeadDoorbell (q : QueueId) (v : BitVec 16)
  /-- ENTRY_FETCH (R349). A fetched submission entry is checked and classified as attach, stale, duplicate or new. -/
  | entryFetch (q : QueueId) (entry : List Byte)
  /-- DISPATCH (R355). The Gate dispatches a queued request to the lowest free slot of the owning core. -/
  | dispatch (o : Owner)
  /-- PAYLOAD_ARRIVAL (R355). A pointer payload arrives from the host, and the descriptor is written and DISPATCH raised. -/
  | payloadArrival (o : Owner) (slot : Fin 32) (payload : List Byte) (ok : Bool)
  /-- REQUEST_COMPLETION (R350). The Gate writes the completion and updates the window in one step. -/
  | requestCompletion (id : Nat)
  /-- DEADLINE_EXPIRY (R359). A held request whose deadline passes completes EXPIRED. -/
  | deadlineExpiry (id : Nat)
  /-- CORE_LOSS_RESOLUTION (R404). The Gate decides re-dispatch or completion from the pennant for a request that lost its core. -/
  | coreLossResolution (id : Nat)
  /-- REQUEST_RETURN (R406). The steward returns a rolled-back request to the Gate for its new owner. -/
  | requestReturn (id : Nat) (newOwner : Owner)
  /-- FLR (R342). A Function Level Reset deletes the queues and resets the BAR0 globals. -/
  | flr
  /-- MBDB_RING (R360). A ring submits the mailbox command, or replays the stored response for a repeated tag. -/
  | mbdbRing (m : MboxId) (ag : Agent)
  /-- MBSEM_ACQ (R360). A write of ACQ takes the mailbox semaphore when it is free. -/
  | mbsemAcq (m : MboxId) (ag : Agent)
  /-- MBSEM_REL (R360). A write of REL frees the semaphore held by the writer. -/
  | mbsemRel (m : MboxId) (ag : Agent)
  /-- REGISTER_WRITE (R5). A write to a register with no row of its own acts by its access code. -/
  | registerWrite (r : RegSpace) (off : BitVec 24) (width : Nat) (v : Word)
  /-- DEBUG_HALT_REQUEST (R282). Writing DBGCTL.HALT latches a debug halt request. -/
  | debugHaltRequest (c : CoreId)
  /-- IDENTIFY (R372). Returns the identity data. -/
  | identify (m : MboxId)
  /-- STATUS (R372). Returns the module state, including the yard status words. -/
  | status (m : MboxId)
  /-- SET_POLICY (R372). Applies the non-zero policy fields and, with PERSIST, writes the policy block. -/
  | setPolicy (m : MboxId)
  /-- SESSION_OPEN (R348). Opens a session and sets its window, role, default deadline and owner. -/
  | sessionOpen (m : MboxId) (choice : Owner)
  /-- SESSION_CLOSE (R372). Aborts queued requests, lets running ones complete, then closes the session. -/
  | sessionClose (m : MboxId)
  /-- SESSION_MOVE_CORE (R372). MODE 0 moves the session to another core once its running requests complete. -/
  | sessionMoveCore (m : MboxId) (choice : Owner)
  /-- SESSION_MOVE_EXPORT (R372). MODE 1 puts the session into moving state for the partner to take over. -/
  | sessionMoveExport (m : MboxId)
  /-- IMAGE_LOAD (R372). Verifies a signed ledger image and writes its sections, HPCC and HDCC. -/
  | imageLoad (m : MboxId) (image : List Byte)
  /-- KEY_SET (R44). Writes the masked attribute fields of a page range and updates every key cache. -/
  | keySet (m : MboxId)
  /-- QUEUE_CREATE (R372). Creates a submission queue and optionally its completion queue. -/
  | queueCreate (m : MboxId)
  /-- QUEUE_DELETE_SQ (R372). Stops fetching from the SQ and deletes it once its fetched requests complete. -/
  | queueDeleteSq (m : MboxId)
  /-- QUEUE_DELETE_CQ (R372). Deletes a CQ whose paired SQs are all deleted. -/
  | queueDeleteCq (m : MboxId)
  /-- MIRROR_PAIR (R396). Brings the named ports out of NOT-READY and pairs them with the partner. -/
  | mirrorPair (m : MboxId)
  /-- MIRROR_PAIR_TIMEOUT (R396). No port paired within 100 ms, so the command answers PEER_UNAVAILABLE. -/
  | mirrorPairTimeout (m : MboxId)
  /-- MIRROR_FENCE (R393). Fences the partner for the sessions homed in the named yards. -/
  | mirrorFence (m : MboxId)
  /-- MIRROR_TAKEOVER (R397). Applies received records and makes the named replica sessions primary. -/
  | mirrorTakeover (m : MboxId)
  /-- QUERY_REQUEST (R374). Answers the state of one request from one Gate snapshot. -/
  | queryRequest (m : MboxId)
  /-- QUERY_BATCH (R376). Answers a batch's state and its entries applied. -/
  | queryBatch (m : MboxId)
  /-- JOURNAL_STREAM_START (R339). Starts a yard's journal stream from the next record sealed. -/
  | journalStreamStart (m : MboxId)
  /-- JOURNAL_STREAM_STOP (R372). Ends the record in progress and sets the stream OFF. -/
  | journalStreamStop (m : MboxId)
  /-- MARCH_RUN_PRESERVING (R274). Runs a preserving march over the named stripes. -/
  | marchRunPreserving (m : MboxId) (found : MarchReport)
  /-- MARCH_RUN_DESTRUCTIVE (R273). Runs a destructive march and initialisation on a core in paddock. -/
  | marchRunDestructive (m : MboxId) (found : MarchReport)
  /-- SCRUB_CTL (R304). Sets the patrol sweep time of the named yards, or stops the scrubber. -/
  | scrubCtl (m : MboxId)
  /-- CORE_RETIRE (R372). Moves the core's sessions, rolls back its segment and puts the core in paddock. -/
  | coreRetire (m : MboxId) (choice : Owner)
  /-- CORE_RELEASE (R255). Reloads the control store of a paddocked core and enters vector 0. -/
  | coreRelease (m : MboxId) (first second : List (BitVec 13 × BitVec 136))
  /-- LOG_READ (R425). Returns up to seven log records from a sequence number. -/
  | logRead (m : MboxId)
  /-- TIME_SET (R372). Sets every TIMER and shifts the deadlines of queued requests. -/
  | timeSet (m : MboxId)
  /-- RESTART_CORE (R372). Rolls back the core's segment, re-dispatches its request and enters vector 0. -/
  | restartCore (m : MboxId) (choice : Owner)
  /-- RESTART_WARM (R373). Posts its response and starts a warm reset 1 ms later. -/
  | restartWarm (m : MboxId)
  /-- RESTART_COLD (R373). Posts its response, optionally programs anti-rollback fuses, and starts a cold reset. -/
  | restartCold (m : MboxId) (containers : List (List Byte))
  /-- SMB_SET_OFFSET (R361). SMBus command 0x01 sets the access offset within mailbox 0. -/
  | smbSetOffset (off : BitVec 16) (pec : Pec)
  /-- SMB_BLOCK_TRANSFER (R361). SMBus command 0x02 reads or writes up to 255 B at the offset, which advances. -/
  | smbBlockTransfer (t : SmbTransfer) (pec : Pec)
  /-- SMB_RING (R361). SMBus command 0x03 rings mailbox 0. -/
  | smbRing (v : Byte) (pec : Pec)
  /-- SMB_SEMAPHORE (R361). SMBus command 0x04 acquires or releases mailbox 0, or reads its owner. -/
  | smbSemaphore (t : SmbSem) (pec : Pec)
  /-- SMB_READ_MBSTS (R361). SMBus command 0x05 returns MBSTS[7:0]. -/
  | smbReadMbsts
  /-- ALERT_RESPONSE (R361). Answering the Alert Response Address releases SMB_ALERT_N. -/
  | alertResponse
  /-- RECOVERY_WRITE (R454). Recovery command 0x20 writes image data at an offset. -/
  | recoveryWrite (data : List Byte) (pec : Pec)
  /-- RECOVERY_VERIFY (R454). Recovery command 0x21 verifies the image and continues ST1 when it passes. -/
  | recoveryVerify (v : Byte) (imageOk : Bool) (pec : Pec)
  /-- RECOVERY_STATUS (R454). Recovery command 0x22 reads the recovery state. -/
  | recoveryStatus
  /-- DATA_FRAME_SEND (R382). A port sends a DATA frame when credits and the serialiser allow. -/
  | dataFrameSend (port : PortId)
  /-- DATA_FRAME (R384). A received DATA frame is accepted in LSEQ order or discarded. -/
  | dataFrame (port : PortId) (f : FrameIn)
  /-- REFUSE (R392). A received REFUSE ends the seal wait with the local outcome and may fence the stream. -/
  | refuse (port : PortId) (f : FrameIn)
  /-- EXPORTED (R397). A received EXPORTED allows takeover of the named sessions. -/
  | exported (port : PortId) (f : FrameIn)
  /-- TAKEN (R398). A received TAKEN makes the named sessions replicas. -/
  | taken (port : PortId) (f : FrameIn)
  /-- ACK (R473). A received ACK updates ACKSEQ, APP and credit limits, ending seal waits for records it passes. -/
  | ack (port : PortId) (f : FrameIn)
  /-- NAK (R386). A received NAK starts a replay from the oldest unacknowledged frame. -/
  | nak (port : PortId) (f : FrameIn)
  /-- HELLO (R396). A received HELLO with an accepted serial completes pairing. -/
  | hello (port : PortId) (f : FrameIn)
  /-- NOTREADY (R395). A received NOTREADY makes the port treat its partner as absent. -/
  | notready (port : PortId) (f : FrameIn)
  /-- REPLAY_TIMEOUT (R386). The oldest unacknowledged frame goes 1.5 µs without acknowledgement and is replayed. -/
  | replayTimeout (port : PortId)
  /-- ACK_HEARTBEAT (R385). An ACK is sent at least every 1 µs. -/
  | ackHeartbeat (port : PortId)
  /-- HELLO_TIMER (R396). An unpaired port sends HELLO every 10 µs. -/
  | helloTimer (port : PortId)
  /-- NOTREADY_TIMER (R395). A NOT-READY port sends NOTREADY every 1 µs. -/
  | notreadyTimer (port : PortId)
  /-- PORT_DOWN (R387). Lock loss, 10 µs of silence or the replay limit takes the port down. -/
  | portDown (port : PortId) (why : DownReason)
  /-- PORT_UP (R472). Auto-negotiation and training complete and the port is up. -/
  | portUp (port : PortId)
  /-- ACKTMO_EXPIRY (R393). The oldest unacknowledged record passes ACKTMO and the stream is fenced. -/
  | acktmoExpiry (y : Yard)
  /-- LOCKSTEP_MISMATCH (R418). The checker stops pair A and pair B becomes active within 4 µs. -/
  | lockstepMismatch (checker : BitVec 32)
  /-- STEWARD_SELF_TEST (R418). Pair A's self-test completes and the pair becomes standby. -/
  | stewardSelfTest (pass : Bool)
  /-- CORE_PARITY_STOP (R414). A register or pipeline parity error stops the core in that SCLK. -/
  | coreParityStop (c : CoreId)
  /-- HANG_WATCHDOG (R413). A core idle for 5 µs with an unposted descriptor is treated as a double exception. -/
  | hangWatchdog (c : CoreId)
  /-- AISLE_CRC_FAILURE (R416). A failing flit is resent, and after 8 failures the hop is failed and traffic reroutes. -/
  | aisleCrcFailure (stop : Fin 17) (decreasing : Bool) (failures : Nat)
  /-- GATE_PARITY_ERROR (R417). A Gate parity error is handled by refetch, rebuild or reread. -/
  | gateParityError (k : GateParity) (unit : BitVec 16)
  /-- REGULATOR_PHASE_FAULT (R419). A faulty regulator phase is disabled within 1 µs. -/
  | regulatorPhaseFault (domain : Fin 30) (phase : BitVec 8)
  /-- CONTROL_LOOP_TICK (R445). Every 100 µs the steward sets each shed's clock from the monitors. -/
  | controlLoopTick (r : Readings)
  /-- CLOCK_CHANGE (R442). A shed's voltage and clock change in order, taking effect at an SCLK boundary. -/
  | clockChange (shed : ShedId) (mhz : Nat)
  /-- DROOP_STRETCH (R443). A 40 mV supply fall doubles the SCLK period until the supply recovers. -/
  | droopStretch (shed : ShedId) (fall : Nat)
  /-- THROTTLE_MIGRATION (R446). After 10 ms of throttling, sessions move to the least loaded unthrottled core. -/
  | throttleMigration (shed : ShedId) (src dst : CoreId)
  /-- AGING_CHECK (R447). Hourly process checks retire four cores whose monitor shows loss above 4 %. -/
  | agingCheck (loss : List Nat) (choice : Owner)
  /-- THERMAL_TRIP (R440). A sensor at 125 °C asserts THERM_TRIP_N and the module enters standby. -/
  | thermalTrip (sensor : Fin 52) (reading : Int)
  /-- FATAL_STOP (R424). The module stops serving, asserts FAULT_N and sends NOTREADY. -/
  | fatalStop (code : FatalCode)
  /-- VAUX_APPLIED (R428). VAUX within range starts a cold start at ST0 and samples the straps. -/
  | vauxApplied (bootSel : BitVec 2) (smbAddr : BitVec 3)
  /-- REFCLK_START (R456). REFCLK starting releases the steward from reset so ST0 begins. -/
  | refclkStart
  /-- ST1 (R428). Verifies the firmware, boot image, policy block and patch containers. -/
  | st1 (b : BootReport)
  /-- ST2 (R428). PCIe training begins and configuration space and mailboxes answer. -/
  | st2
  /-- ST3 (R283). Trains the yards and, at a cold start, runs the cold march and starts initialisation. -/
  | st3 (t : TrainReport)
  /-- ST4 (R254). Loads and verifies every control store from the merged image. -/
  | st4 (first second : List (CoreId × BitVec 13 × BitVec 136))
  /-- ST5 (R428). Brings the sheds online, applies recorded fences and waits for yard initialisation. -/
  | st5
  /-- ST6 (R428). Asserts READY and accepts doorbells and every command. -/
  | st6
  /-- PERST_N_ASSERT (R432). A warm reset runs the entry sequence that settles every request in flight. -/
  | perstNAssert
  /-- WARM_ACK_WAIT_END (R432). The 100 µs acknowledgement wait ends and streams with unacknowledged records are fenced. -/
  | warmAckWaitEnd
  /-- PERST_N_DEASSERT (R429). Release of PERST_N after ST1 lets ST2 begin. -/
  | perstNDeassert
  /-- PWR_EN_HIGH (R457). PWR_EN raised leaves standby as a start from ST1. -/
  | pwrEnHigh
  /-- PWR_EN_LOW (R439). PWR_EN low removes every domain except PD00 within 100 µs. -/
  | pwrEnLow
  /-- VIN_LOSS (R433). Loss of VIN enters standby at any point. -/
  | vinLoss
  /-- VAUX_LOSS (R458). VAUX falling below 2.9 V turns off every domain at once, and the next VAUX is a cold start. -/
  | vauxLoss
  /-- REFCLK_STOP (R456). With REFCLK absent the steward is held in reset and SMBus stops answering until REFCLK starts again. -/
  | refclkStop
  /-- JTAG_INSTRUCTION_UPDATE (R459). A TAP instruction loaded over TCK takes effect, with EXTEST, CLAMP and HIGHZ acting only while PWR_EN is low and DBGACC only with debug enabled. -/
  | jtagInstructionUpdate (ir : BitVec 5)
  /-- DROOP_STRETCH_END (R443). After the supply has been within 20 mV of the set voltage for 64 SCLK, the SCLK period returns to normal. -/
  | droopStretchEnd (shed : ShedId)
  /-- RESERVED_FRAME_RECEIVED (R380). A Halyard frame of a reserved type is discarded and logged as FRAME_DROPPED. -/
  | reservedFrameReceived (port : PortId) (f : FrameIn)
  /-- RESTART_RESET_BEGIN (R373). 1 ms after a module RESTART posts its response, the warm or cold reset begins. -/
  | restartResetBegin
  deriving DecidableEq, Repr

end Sys2Proof
end

