-- ==== Sys2Proof/WellFormed.lean ====
section
/-! DEFINITION. Which commands an agent can send: the lengths and values that the type of a command leaves free, as the
spec fixes them. -/

namespace Sys2Proof

/-- Whether 03 Tables 3.9 to 3.14 assign an L64 opcode. -/
def assigned (opc : Nat) : Bool :=
  opc ≤ 0x06 || (0x08 ≤ opc && opc ≤ 0x0E) || (0x10 ≤ opc && opc ≤ 0x14) || (0x18 ≤ opc && opc ≤ 0x1C)
    || (0x20 ≤ opc && opc ≤ 0x21) || (0x30 ≤ opc && opc ≤ 0x35) || (0x38 ≤ opc && opc ≤ 0x3A)
    || (0x40 ≤ opc && opc ≤ 0x41) || (0x100 ≤ opc && opc ≤ 0x10E) || (0x180 ≤ opc && opc ≤ 0x18C)
    || (0x200 ≤ opc && opc ≤ 0x20B) || opc == 0x20D || (0x210 ≤ opc && opc ≤ 0x21D) || (0x220 ≤ opc && opc ≤ 0x22D)
    || (0x230 ≤ opc && opc ≤ 0x237) || (0x280 ≤ opc && opc ≤ 0x292) || (0x298 ≤ opc && opc ≤ 0x29A)
    || (0x2C0 ≤ opc && opc ≤ 0x2C5) || (0x2C8 ≤ opc && opc ≤ 0x2CA) || (0x2D0 ≤ opc && opc ≤ 0x2D1)
    || (0x2D8 ≤ opc && opc ≤ 0x2DD) || (0x2E0 ≤ opc && opc ≤ 0x2E3) || (0x2E8 ≤ opc && opc ≤ 0x2E9)
    || opc == 0x2F0 || opc == 0x2F8

/-- An opcode no table assigns (03 R62, R81). -/
def Unassigned.ok : Unassigned → Bool
  | .l64 opc _ => !assigned opc.toNat
  | .s16 op _ _ => op == 0 || 0x17 ≤ op.toNat

/-- Chunk errors name each position of a stripe at most once. -/
def errsOk (errs : List ChunkError) : Bool := (errs.map (·.pos)).dedup.length == errs.length

/-- A Halyard frame has at least its header and its check (15 Table 15.3). -/
def FrameIn.ok (f : FrameIn) : Bool := 20 ≤ f.bytes.length

/-- One reading for each monitor: 52 thermal sensors, 30 voltage monitors with their regulators, 24 process monitors. -/
def Readings.ok (r : Readings) : Bool :=
  r.thermal.length == 52 && r.volt.length == 30 && r.pmbus.length == 30 && r.process.length == 24

/-- The commands an agent can send. -/
def Instr.wellFormed : Instr → Bool
  | .unassignedOpcode _ u => u.ok
  | .lineRead _ _ errs => errsOk errs
  | .rebuildStep _ errs => errsOk errs
  | .patrolScrubLine _ errs _ => errsOk errs
  | .lineWrite _ _ off data tags =>
    0 < data.length && off.toNat + data.length ≤ 256
      && tags.length == (off.toNat + data.length - 1) / 8 - off.toNat / 8 + 1
  | .bankScrubRow _ errs => (errs.map (·.1)).dedup.length == errs.length
  | .entryFetch _ e => e.length == 128
  | .registerWrite _ _ width _ => width == 1 || width == 2 || width == 4 || width == 8
  | .dataFrame _ f => f.ok
  | .refuse _ f => f.ok
  | .exported _ f => f.ok
  | .taken _ f => f.ok
  | .ack _ f => f.ok
  | .nak _ f => f.ok
  | .hello _ f => f.ok
  | .notready _ f => f.ok
  | .reservedFrameReceived _ f => f.ok
  | .smbBlockTransfer (.write d) _ => d.length ≤ 255
  | .smbBlockTransfer (.read n) _ => n ≤ 255
  | .controlLoopTick r => r.ok
  | .aisleCrcFailure _ _ n => 0 < n
  | .throttleMigration shed src _ => src.val / 8 == shed.val
  | .agingCheck loss _ => loss.length == 26
  | .st1 b => b.containers.length ≤ 4
  | _ => true

end Sys2Proof
end

