-- ==== Sys2Proof/Decode.lean ====
section
/-! DEFINITION. The Nymel instruction words: what a halfword or four of them spell to a core (03 R58, R59, R61, R62, R66, R81, Tables
3.1 to 3.4 and 3.9 to 3.14), the encoder beside the decoder, and the host's decoder over the opcode table, whose rows give no bits. -/

namespace Sys2Proof

/-! ## Decoding -/

/-- What an L64 opcode spells (03 Tables 3.9 to 3.14); any other is unassigned (03 R81). -/
def decodeOpcode (c : CoreId) (opc : BitVec 10) (w : L64) : Instr :=
  match opc.toNat with
  | 0x000 => .mov c (.l64 w)
  | 0x001 => .add c (.l64 w)
  | 0x002 => .sub c (.l64 w)
  | 0x003 => .adc c (.l64 w)
  | 0x004 => .sbc c (.l64 w)
  | 0x005 => .neg c (.l64 w)
  | 0x006 => .cmp c (.l64 w)
  | 0x008 => .and c (.l64 w)
  | 0x009 => .or c (.l64 w)
  | 0x00A => .xor c (.l64 w)
  | 0x00B => .andn c (.l64 w)
  | 0x00C => .not c (.l64 w)
  | 0x00D => .clz c w
  | 0x00E => .popc c w
  | 0x010 => .shl c (.l64 w)
  | 0x011 => .shrl c (.l64 w)
  | 0x012 => .shra c (.l64 w)
  | 0x013 => .rol c (.l64 w)
  | 0x014 => .ror c (.l64 w)
  | 0x018 => .mul c (.l64 w)
  | 0x019 => .mulw c (.l64 w)
  | 0x01A => .mwait c (.l64 w)
  | 0x01B => .mfmh c (.l64 w)
  | 0x01C => .mfml c (.l64 w)
  | 0x020 => .div c w
  | 0x021 => .divu c w
  | 0x030 => .ldb c w
  | 0x031 => .ldh c w
  | 0x032 => .ldw c w
  | 0x033 => .ldbs c w
  | 0x034 => .ldhs c w
  | 0x035 => .ldws c w
  | 0x038 => .stb (.core c w)
  | 0x039 => .sth (.core c w)
  | 0x03A => .stw (.core c w)
  | 0x040 => .mfs c w
  | 0x041 => .mts c w
  | 0x100 => .dadd c w
  | 0x101 => .dsub c w
  | 0x102 => .dmul c w
  | 0x103 => .ddiv c w
  | 0x104 => .dmov c w
  | 0x105 => .dmovu c w
  | 0x106 => .dcmp c w
  | 0x107 => .dsrd c w
  | 0x108 => .dtob c w
  | 0x109 => .dtobw c w
  | 0x10A => .btod c w
  | 0x10B => .btodw c w
  | 0x10C => .dpak c w
  | 0x10D => .dunp c w
  | 0x10E => .dtst c w
  | 0x180 => .smov c w
  | 0x181 => .smova c w
  | 0x182 => .smvt c w
  | 0x183 => .sxlt c w
  | 0x184 => .scmp c w
  | 0x185 => .sfnd c w
  | 0x186 => .schk c w
  | 0x187 => .sfil c w
  | 0x188 => .sxu8 c w
  | 0x189 => .sxl1 c w
  | 0x18A => .edit c w
  | 0x18B => .editm c w
  | 0x18C => .scan c w
  | 0x200 => .fadd c w
  | 0x201 => .fsub c w
  | 0x202 => .fmul c w
  | 0x203 => .fdiv c w
  | 0x204 => .fsqrt c w
  | 0x205 => .fma c w
  | 0x206 => .fcmp c w
  | 0x207 => .fabs c w
  | 0x208 => .fneg c w
  | 0x209 => .ffromi c w
  | 0x20A => .ftoi c w
  | 0x20B => .frnd c w
  | 0x20D => .fclass c w
  | 0x210 => .dfadd c w
  | 0x211 => .dfsub c w
  | 0x212 => .dfmul c w
  | 0x213 => .dfdiv c w
  | 0x214 => .dfsqrt c w
  | 0x215 => .dfma c w
  | 0x216 => .dfcmp c w
  | 0x217 => .dfabs c w
  | 0x218 => .dfneg c w
  | 0x219 => .dffromi c w
  | 0x21A => .dftoi c w
  | 0x21B => .dfrnd c w
  | 0x21C => .dfqua c w
  | 0x21D => .dfclass c w
  | 0x220 => .dqadd c w
  | 0x221 => .dqsub c w
  | 0x222 => .dqmul c w
  | 0x223 => .dqdiv c w
  | 0x224 => .dqsqrt c w
  | 0x225 => .dqfma c w
  | 0x226 => .dqcmp c w
  | 0x227 => .dqabs c w
  | 0x228 => .dqneg c w
  | 0x229 => .dqfromi c w
  | 0x22A => .dqtoi c w
  | 0x22B => .dqrnd c w
  | 0x22C => .dqqua c w
  | 0x22D => .dqclass c w
  | 0x230 => .ftodf c w
  | 0x231 => .dftof c w
  | 0x232 => .dftodq c w
  | 0x233 => .dqtodf c w
  | 0x234 => .ftodq c w
  | 0x235 => .dqtof c w
  | 0x236 => .ptodq c w
  | 0x237 => .dqtop c w
  | 0x280 => .cld c w
  | 0x281 => .cst c w
  | 0x282 => .cmov c w
  | 0x283 => .cgeta c w
  | 0x284 => .cgetb c w
  | 0x285 => .cgett c w
  | 0x286 => .cgetp c w
  | 0x287 => .cseta c w
  | 0x288 => .cinc c w
  | 0x289 => .csetb c w
  | 0x28A => .csetbx c w
  | 0x28B => .cnarrow c w
  | 0x28C => .cperm c w
  | 0x28D => .ckey c w
  | 0x28E => .cseal c w
  | 0x28F => .cunseal c w
  | 0x290 => .cmfs c w
  | 0x291 => .cmts c w
  | 0x292 => .ceq c w
  | 0x298 => .tagget c w
  | 0x299 => .tagset c w
  | 0x29A => .tagcode c w
  | 0x2C0 => .br c w
  | 0x2C1 => .brl c w
  | 0x2C2 => .jmp c w
  | 0x2C3 => .jmpl c w
  | 0x2C4 => .retx c w
  | 0x2C5 => .trap c w
  | 0x2C8 => .pcmp c w
  | 0x2C9 => .plog c w
  | 0x2CA => .pflg c w
  | 0x2D0 => .iflush c w
  | 0x2D1 => .fence c w
  | 0x2D8 => .tas c w
  | 0x2D9 => .lrsv c w
  | 0x2DA => .stcn c w
  | 0x2DB => .badd c w
  | 0x2DC => .bswp c w
  | 0x2DD => .btas c w
  | 0x2E0 => .jopen (.core c w)
  | 0x2E1 => .seal (.core c w)
  | 0x2E2 => .seala (.core c w)
  | 0x2E3 => .jdrop (.core c w)
  | 0x2E8 => .waitd (.core c w)
  | 0x2E9 => .post (.core c w)
  | 0x2F0 => .signal c w
  | 0x2F8 => .nop c w
  | _ => .unassignedOpcode c (.l64 opc w)

/-- What an S16 register-to-register operation spells (03 Table 3.2, R62). -/
def decodeAlu (c : CoreId) (op : BitVec 6) (rd rs : BitVec 4) : Instr :=
  match op.toNat with
  | 0x01 => .mov c (.s16 rd rs)
  | 0x02 => .add c (.s16 rd rs)
  | 0x03 => .sub c (.s16 rd rs)
  | 0x04 => .adc c (.s16 rd rs)
  | 0x05 => .sbc c (.s16 rd rs)
  | 0x06 => .and c (.s16 rd rs)
  | 0x07 => .or c (.s16 rd rs)
  | 0x08 => .xor c (.s16 rd rs)
  | 0x09 => .andn c (.s16 rd rs)
  | 0x0A => .shl c (.s16 rd rs)
  | 0x0B => .shrl c (.s16 rd rs)
  | 0x0C => .shra c (.s16 rd rs)
  | 0x0D => .rol c (.s16 rd rs)
  | 0x0E => .ror c (.s16 rd rs)
  | 0x0F => .neg c (.s16 rd rs)
  | 0x10 => .not c (.s16 rd rs)
  | 0x11 => .cmp c (.s16 rd rs)
  | 0x12 => .mul c (.s16 rd rs)
  | 0x13 => .mulw c (.s16 rd rs)
  | 0x14 => .mfmh c (.s16 rd rs)
  | 0x15 => .mfml c (.s16 rd rs)
  | 0x16 => .mwait c (.s16 rd rs)
  | _ => .unassignedOpcode c (.s16 op rd rs)

/-- What an S16 halfword of form 0b10 spells (03 Table 3.3). -/
def decodeShort (c : CoreId) (h : BitVec 16) : Instr :=
  match (h.extractLsb' 12 2).toNat with
  | 0 => .shortBranch c (h.getLsbD 11) (h.extractLsb' 8 3) (h.extractLsb' 0 8)
  | 1 => .shortPcmp c (h.extractLsb' 9 3) (h.extractLsb' 6 3) (h.extractLsb' 2 4) (h.extractLsb' 0 2)
  | 2 => .movi c (h.extractLsb' 8 4) (h.extractLsb' 0 8)
  | _ => .addi c (h.extractLsb' 8 4) (h.extractLsb' 0 8)

/-- What an S16 halfword spells (03 Table 3.1). -/
def decodeS16 (c : CoreId) (h : BitVec 16) : Instr :=
  match (h.extractLsb' 14 2).toNat with
  | 0 => decodeAlu c (h.extractLsb' 8 6) (h.extractLsb' 4 4) (h.extractLsb' 0 4)
  | 1 => .shortLoadStore c (h.getLsbD 13) (h.extractLsb' 11 2) (h.extractLsb' 7 4) (h.extractLsb' 0 7)
  | _ => decodeShort c h

/-- Whether a first halfword begins an L64 (03 R59). -/
def isLong (h : BitVec 16) : Bool := h.extractLsb' 14 2 == 3

/-- What the halfwords from an address on spell to a core, with the halfwords that follow; none where an L64 is cut short
(03 R58, R59, Table 3.4). -/
def decodeWords (c : CoreId) : List (BitVec 16) → Option (Instr × List (BitVec 16))
  | [] => none
  | h :: rest =>
    if isLong h then
      match rest with
      | sa :: sb :: sc :: more =>
        some (decodeOpcode c (h.extractLsb' 0 10) ⟨h.extractLsb' 11 3, h.getLsbD 10, sa, sb, sc⟩, more)
      | _ => none
    else some (decodeS16 c h, rest)

/-! ## Encoding -/

/-- The L64 opcode and fields of an instruction in its L64 form, with its core (03 Tables 3.9 to 3.14). -/
def longForm : Instr → Option (CoreId × BitVec 10 × L64)
  | .mov c (.l64 w) => some (c, 0x000, w)
  | .add c (.l64 w) => some (c, 0x001, w)
  | .sub c (.l64 w) => some (c, 0x002, w)
  | .adc c (.l64 w) => some (c, 0x003, w)
  | .sbc c (.l64 w) => some (c, 0x004, w)
  | .neg c (.l64 w) => some (c, 0x005, w)
  | .cmp c (.l64 w) => some (c, 0x006, w)
  | .and c (.l64 w) => some (c, 0x008, w)
  | .or c (.l64 w) => some (c, 0x009, w)
  | .xor c (.l64 w) => some (c, 0x00A, w)
  | .andn c (.l64 w) => some (c, 0x00B, w)
  | .not c (.l64 w) => some (c, 0x00C, w)
  | .clz c w => some (c, 0x00D, w)
  | .popc c w => some (c, 0x00E, w)
  | .shl c (.l64 w) => some (c, 0x010, w)
  | .shrl c (.l64 w) => some (c, 0x011, w)
  | .shra c (.l64 w) => some (c, 0x012, w)
  | .rol c (.l64 w) => some (c, 0x013, w)
  | .ror c (.l64 w) => some (c, 0x014, w)
  | .mul c (.l64 w) => some (c, 0x018, w)
  | .mulw c (.l64 w) => some (c, 0x019, w)
  | .mwait c (.l64 w) => some (c, 0x01A, w)
  | .mfmh c (.l64 w) => some (c, 0x01B, w)
  | .mfml c (.l64 w) => some (c, 0x01C, w)
  | .div c w => some (c, 0x020, w)
  | .divu c w => some (c, 0x021, w)
  | .ldb c w => some (c, 0x030, w)
  | .ldh c w => some (c, 0x031, w)
  | .ldw c w => some (c, 0x032, w)
  | .ldbs c w => some (c, 0x033, w)
  | .ldhs c w => some (c, 0x034, w)
  | .ldws c w => some (c, 0x035, w)
  | .stb (.core c w) => some (c, 0x038, w)
  | .sth (.core c w) => some (c, 0x039, w)
  | .stw (.core c w) => some (c, 0x03A, w)
  | .mfs c w => some (c, 0x040, w)
  | .mts c w => some (c, 0x041, w)
  | .dadd c w => some (c, 0x100, w)
  | .dsub c w => some (c, 0x101, w)
  | .dmul c w => some (c, 0x102, w)
  | .ddiv c w => some (c, 0x103, w)
  | .dmov c w => some (c, 0x104, w)
  | .dmovu c w => some (c, 0x105, w)
  | .dcmp c w => some (c, 0x106, w)
  | .dsrd c w => some (c, 0x107, w)
  | .dtob c w => some (c, 0x108, w)
  | .dtobw c w => some (c, 0x109, w)
  | .btod c w => some (c, 0x10A, w)
  | .btodw c w => some (c, 0x10B, w)
  | .dpak c w => some (c, 0x10C, w)
  | .dunp c w => some (c, 0x10D, w)
  | .dtst c w => some (c, 0x10E, w)
  | .smov c w => some (c, 0x180, w)
  | .smova c w => some (c, 0x181, w)
  | .smvt c w => some (c, 0x182, w)
  | .sxlt c w => some (c, 0x183, w)
  | .scmp c w => some (c, 0x184, w)
  | .sfnd c w => some (c, 0x185, w)
  | .schk c w => some (c, 0x186, w)
  | .sfil c w => some (c, 0x187, w)
  | .sxu8 c w => some (c, 0x188, w)
  | .sxl1 c w => some (c, 0x189, w)
  | .edit c w => some (c, 0x18A, w)
  | .editm c w => some (c, 0x18B, w)
  | .scan c w => some (c, 0x18C, w)
  | .fadd c w => some (c, 0x200, w)
  | .fsub c w => some (c, 0x201, w)
  | .fmul c w => some (c, 0x202, w)
  | .fdiv c w => some (c, 0x203, w)
  | .fsqrt c w => some (c, 0x204, w)
  | .fma c w => some (c, 0x205, w)
  | .fcmp c w => some (c, 0x206, w)
  | .fabs c w => some (c, 0x207, w)
  | .fneg c w => some (c, 0x208, w)
  | .ffromi c w => some (c, 0x209, w)
  | .ftoi c w => some (c, 0x20A, w)
  | .frnd c w => some (c, 0x20B, w)
  | .fclass c w => some (c, 0x20D, w)
  | .dfadd c w => some (c, 0x210, w)
  | .dfsub c w => some (c, 0x211, w)
  | .dfmul c w => some (c, 0x212, w)
  | .dfdiv c w => some (c, 0x213, w)
  | .dfsqrt c w => some (c, 0x214, w)
  | .dfma c w => some (c, 0x215, w)
  | .dfcmp c w => some (c, 0x216, w)
  | .dfabs c w => some (c, 0x217, w)
  | .dfneg c w => some (c, 0x218, w)
  | .dffromi c w => some (c, 0x219, w)
  | .dftoi c w => some (c, 0x21A, w)
  | .dfrnd c w => some (c, 0x21B, w)
  | .dfqua c w => some (c, 0x21C, w)
  | .dfclass c w => some (c, 0x21D, w)
  | .dqadd c w => some (c, 0x220, w)
  | .dqsub c w => some (c, 0x221, w)
  | .dqmul c w => some (c, 0x222, w)
  | .dqdiv c w => some (c, 0x223, w)
  | .dqsqrt c w => some (c, 0x224, w)
  | .dqfma c w => some (c, 0x225, w)
  | .dqcmp c w => some (c, 0x226, w)
  | .dqabs c w => some (c, 0x227, w)
  | .dqneg c w => some (c, 0x228, w)
  | .dqfromi c w => some (c, 0x229, w)
  | .dqtoi c w => some (c, 0x22A, w)
  | .dqrnd c w => some (c, 0x22B, w)
  | .dqqua c w => some (c, 0x22C, w)
  | .dqclass c w => some (c, 0x22D, w)
  | .ftodf c w => some (c, 0x230, w)
  | .dftof c w => some (c, 0x231, w)
  | .dftodq c w => some (c, 0x232, w)
  | .dqtodf c w => some (c, 0x233, w)
  | .ftodq c w => some (c, 0x234, w)
  | .dqtof c w => some (c, 0x235, w)
  | .ptodq c w => some (c, 0x236, w)
  | .dqtop c w => some (c, 0x237, w)
  | .cld c w => some (c, 0x280, w)
  | .cst c w => some (c, 0x281, w)
  | .cmov c w => some (c, 0x282, w)
  | .cgeta c w => some (c, 0x283, w)
  | .cgetb c w => some (c, 0x284, w)
  | .cgett c w => some (c, 0x285, w)
  | .cgetp c w => some (c, 0x286, w)
  | .cseta c w => some (c, 0x287, w)
  | .cinc c w => some (c, 0x288, w)
  | .csetb c w => some (c, 0x289, w)
  | .csetbx c w => some (c, 0x28A, w)
  | .cnarrow c w => some (c, 0x28B, w)
  | .cperm c w => some (c, 0x28C, w)
  | .ckey c w => some (c, 0x28D, w)
  | .cseal c w => some (c, 0x28E, w)
  | .cunseal c w => some (c, 0x28F, w)
  | .cmfs c w => some (c, 0x290, w)
  | .cmts c w => some (c, 0x291, w)
  | .ceq c w => some (c, 0x292, w)
  | .tagget c w => some (c, 0x298, w)
  | .tagset c w => some (c, 0x299, w)
  | .tagcode c w => some (c, 0x29A, w)
  | .br c w => some (c, 0x2C0, w)
  | .brl c w => some (c, 0x2C1, w)
  | .jmp c w => some (c, 0x2C2, w)
  | .jmpl c w => some (c, 0x2C3, w)
  | .retx c w => some (c, 0x2C4, w)
  | .trap c w => some (c, 0x2C5, w)
  | .pcmp c w => some (c, 0x2C8, w)
  | .plog c w => some (c, 0x2C9, w)
  | .pflg c w => some (c, 0x2CA, w)
  | .iflush c w => some (c, 0x2D0, w)
  | .fence c w => some (c, 0x2D1, w)
  | .tas c w => some (c, 0x2D8, w)
  | .lrsv c w => some (c, 0x2D9, w)
  | .stcn c w => some (c, 0x2DA, w)
  | .badd c w => some (c, 0x2DB, w)
  | .bswp c w => some (c, 0x2DC, w)
  | .btas c w => some (c, 0x2DD, w)
  | .jopen (.core c w) => some (c, 0x2E0, w)
  | .seal (.core c w) => some (c, 0x2E1, w)
  | .seala (.core c w) => some (c, 0x2E2, w)
  | .jdrop (.core c w) => some (c, 0x2E3, w)
  | .waitd (.core c w) => some (c, 0x2E8, w)
  | .post (.core c w) => some (c, 0x2E9, w)
  | .signal c w => some (c, 0x2F0, w)
  | .nop c w => some (c, 0x2F8, w)
  | .unassignedOpcode c (.l64 opc w) => some (c, opc, w)
  | _ => none

/-- The halfword of an S16 register-to-register operation (03 Table 3.1). -/
def aluHalf (op : BitVec 6) (rd rs : BitVec 4) : BitVec 16 := (0#2 ++ op ++ rd ++ rs)

/-- The halfword of an instruction in an S16 form, with its core (03 Tables 3.1 to 3.3). -/
def shortForm : Instr → Option (CoreId × BitVec 16)
  | .mov c (.s16 rd rs) => some (c, aluHalf 0x01 rd rs)
  | .add c (.s16 rd rs) => some (c, aluHalf 0x02 rd rs)
  | .sub c (.s16 rd rs) => some (c, aluHalf 0x03 rd rs)
  | .adc c (.s16 rd rs) => some (c, aluHalf 0x04 rd rs)
  | .sbc c (.s16 rd rs) => some (c, aluHalf 0x05 rd rs)
  | .and c (.s16 rd rs) => some (c, aluHalf 0x06 rd rs)
  | .or c (.s16 rd rs) => some (c, aluHalf 0x07 rd rs)
  | .xor c (.s16 rd rs) => some (c, aluHalf 0x08 rd rs)
  | .andn c (.s16 rd rs) => some (c, aluHalf 0x09 rd rs)
  | .shl c (.s16 rd rs) => some (c, aluHalf 0x0A rd rs)
  | .shrl c (.s16 rd rs) => some (c, aluHalf 0x0B rd rs)
  | .shra c (.s16 rd rs) => some (c, aluHalf 0x0C rd rs)
  | .rol c (.s16 rd rs) => some (c, aluHalf 0x0D rd rs)
  | .ror c (.s16 rd rs) => some (c, aluHalf 0x0E rd rs)
  | .neg c (.s16 rd rs) => some (c, aluHalf 0x0F rd rs)
  | .not c (.s16 rd rs) => some (c, aluHalf 0x10 rd rs)
  | .cmp c (.s16 rd rs) => some (c, aluHalf 0x11 rd rs)
  | .mul c (.s16 rd rs) => some (c, aluHalf 0x12 rd rs)
  | .mulw c (.s16 rd rs) => some (c, aluHalf 0x13 rd rs)
  | .mfmh c (.s16 rd rs) => some (c, aluHalf 0x14 rd rs)
  | .mfml c (.s16 rd rs) => some (c, aluHalf 0x15 rd rs)
  | .mwait c (.s16 rd rs) => some (c, aluHalf 0x16 rd rs)
  | .unassignedOpcode c (.s16 op rd rs) => some (c, aluHalf op rd rs)
  | .shortLoadStore c store base g disp => some (c, 1#2 ++ BitVec.ofBool store ++ base ++ g ++ disp)
  | .shortBranch c invert p simm => some (c, 2#2 ++ 0#2 ++ BitVec.ofBool invert ++ p ++ simm)
  | .shortPcmp c pd cond gs low => some (c, 2#2 ++ 1#2 ++ pd ++ cond ++ gs ++ low)
  | .movi c rd simm => some (c, 2#2 ++ 2#2 ++ rd ++ simm)
  | .addi c rd simm => some (c, 2#2 ++ 3#2 ++ rd ++ simm)
  | _ => none

/-- The first halfword of an L64 (03 Table 3.4). -/
def longHalf (opc : BitVec 10) (w : L64) : BitVec 16 := 3#2 ++ w.gp ++ BitVec.ofBool w.gi ++ opc

/-- The core and the halfwords of a Nymel instruction, the lowest address first (03 R58, R59); a command that is no instruction word
has none. -/
def encodeWords (i : Instr) : Option (CoreId × List (BitVec 16)) :=
  match longForm i with
  | some (c, opc, w) => some (c, [longHalf opc w, w.sa, w.sb, w.sc])
  | none => (shortForm i).map fun (c, h) => (c, [h])

/-! ## The opcode table -/

/-- The command a word of the table spells: none, since the table gives no row any bits. -/
def decodeTableWord (_nbits _w : Nat) : Option Instr := none

end Sys2Proof
end

