-- ==== Sys2Proof/Config.lean ====
section
/-! DEFINITION. What the spec fixes by fuse or firmware, and the free values: values the spec leaves undefined although the
machine goes on. None has a body, so nothing proved of the model rests on a number chosen for it. -/

namespace Sys2Proof

/-- The undefined data a port-B read receives when it meets a port-A write of the same word (10 R264, Table 10.3),
the n-th time it happens. Free value (log entry 3). -/
opaque Config.collidedData : Nat → Word

/-- Whether an instruction in the window of 03 R93 executes its old content, with the old tag, at the n-th such choice.
Free value (log entry 3). -/
opaque Config.fetchesOld : Nat → Bool

/-- Whether two instructions that may pair under 08 Table 8.3 issue as a pair, at the n-th such choice. Free value (log entry 160). -/
opaque Config.issuesPaired : Nat → Bool

/-- True for the IL96-128-26, false for the IL96-128-30 (00 Table 0.1): which orderable part this module is. -/
opaque Config.part26 : Bool

/-- Device Serial Number, from fuses (13 Table 13.2, 14 Table 14.7). -/
opaque Config.serial : Word

/-- Vendor ID and Subsystem Vendor ID: Wyentan's assigned value, a fuse (13 Table 13.2). -/
opaque Config.vendorId : BitVec 16
/-- Subsystem ID (13 Table 13.2 names the header only). -/
opaque Config.subsystemId : BitVec 16
/-- Revision ID of the configuration header, from fuses (13 Table 13.2). -/
opaque Config.revisionId : BitVec 8
/-- Link speed and width that training reached, as the link status register gives them (13 Table 13.1). -/
opaque Config.linkStatus : BitVec 16

/-- Silicon revision, from fuses (14 Table 14.7, 19 R459). -/
opaque Config.revision : BitVec 16

/-- Steward firmware version of the verified image (14 Table 14.7). -/
opaque Config.fwVersion : BitVec 32

/-- Base microcode version of the verified image (14 Table 14.7, 09 Table 9.6). -/
opaque Config.ucVersion : BitVec 32

/-- Wyentan's JEP106 code in the IDCODE (19 R459). -/
opaque Config.jep106 : BitVec 11

/-- Instruction codes of the TAP beside `BYPASS`: `SAMPLE`, `EXTEST`, `IDCODE`, `CLAMP`, `HIGHZ`, `DBGACC` (19 R459). -/
opaque Config.jtagCode : Nat → BitVec 5

/-- Verification-key hash of containers, from fuses (09 R252 check 2). -/
opaque Config.keyHash : List Byte
/-- Customer image-key hash of ledger images, from fuses (14 after Table 14.9). -/
opaque Config.imageKeyHash : List Byte
/-- Device key, from fuses (09 R252 check 6). -/
opaque Config.deviceKey : List Byte

/-- The engine's fault table: vector and CAUSE.CODE by index (09 R245). -/
opaque Config.faultTable : BitVec 8 → BitVec 6 × BitVec 16

/-- The base microcode of the verified boot image (09 R251), one 128-bit word per address. -/
opaque Config.microcode : BitVec 13 → BitVec 128

/-- Signals of the low-speed groups (19 Tables 19.1, 19.2). -/
inductive Signal where
  | perstN | wakeN | smbScl | smbSda | smbAlertN | tck | tms | tdi | tdo | trstN | xspiClk | xspiCsN
  | ready | safe | faultN | thermTripN | pwrEn
  | smbAddr (i : Fin 3)
  | bootSel (i : Fin 2)
  | xspiIo (i : Fin 4)
  deriving DecidableEq, Repr

/-- The cells of the boundary-scan register in scan order, as the BSDL file of the silicon revision gives them (19 before R450, R459). -/
opaque Config.boundaryCells : List Signal

/-- What stands on a signal that the module neither drives nor holds, at the n-th look. Free value (log entry 164). -/
opaque Config.signalLevel : Signal → Nat → Bool

/-- The part's upper SCLK limit in MHz (00 Table 0.1, R1). -/
def Config.sclkLimit : Nat := if Config.part26 then 2600 else 3000

/-- The IDENTIFY part code (00 Table 0.1). -/
def Config.partCode : BitVec 32 := if Config.part26 then 0x00960126 else 0x00960130

end Sys2Proof
end

