-- ==== Sys2Proof/Machine/Bits.lean ====
section
/-! DEFINITION. Bit fields, byte order and the cyclic redundancy checks of chapters 11, 12 and 15. -/

namespace Sys2Proof

/-- Little-endian value of a byte list. -/
def leNat : List Byte → Nat
  | [] => 0
  | b :: t => b.toNat + 256 * leNat t

/-- The low `n` bytes of a number, least significant first. -/
def toLe : Nat → Nat → List Byte
  | 0, _ => []
  | n + 1, v => BitVec.ofNat 8 (v % 256) :: toLe n (v / 256)

/-- The `n` bytes at offset `off`; bytes past the end read as zero. -/
def slice (bs : List Byte) (off n : Nat) : List Byte :=
  (List.range n).map fun i => bs.getD (off + i) 0

/-- Little-endian field of `n` bytes at an offset. -/
def fieldLe (bs : List Byte) (off n : Nat) : Nat := leNat (slice bs off n)

/-- Overwrites the bytes from an offset on, within the list. -/
def patch (bs : List Byte) (off : Nat) (v : List Byte) : List Byte :=
  bs.take off ++ (v ++ bs.drop (off + v.length)).take (bs.length - off)

/-- Whether every byte of a list is zero. -/
def allZero (bs : List Byte) : Bool := bs.all (· == 0)

/-- Whether a number lies in a range. -/
def inRange (lo hi v : Nat) : Bool := decide (lo ≤ v ∧ v ≤ hi)

/-- Bits of a value, least significant first. -/
def bitsLsb (n : Nat) (v : Nat) : List Bool := (List.range n).map v.testBit

/-- One bit through a reflected cyclic redundancy check. -/
def crcBit {w : Nat} (poly reg : BitVec w) (bit : Bool) : BitVec w :=
  if (reg.getLsbD 0) != bit then (reg >>> 1) ^^^ poly else reg >>> 1

/-- A bit string through a check, first bit first. -/
def crcBits {w : Nat} (poly reg : BitVec w) (bits : List Bool) : BitVec w :=
  bits.foldl (crcBit poly) reg

/-- Bytes through a check, each least significant bit first. -/
def crcBytes {w : Nat} (poly reg : BitVec w) (bs : List Byte) : BitVec w :=
  bs.foldl (fun r b => crcBits poly r (bitsLsb 8 b.toNat)) reg

/-- CRC-64 of a journal record (12 R329). -/
def crc64 (bs : List Byte) : BitVec 64 :=
  crcBytes 0xC96C5795D7870F42 0xFFFFFFFFFFFFFFFF bs ^^^ 0xFFFFFFFFFFFFFFFF

/-- CRC-32C of a Halyard frame (15 R381). -/
def crc32c (bs : List Byte) : BitVec 32 :=
  crcBytes 0x82F63B78 0xFFFFFFFF bs ^^^ 0xFFFFFFFF

/-- The check of a data chunk: line number, 32 bytes, four tags (11 R291). -/
def crc14 (n : YLine) (bytes : List Byte) (tags : List Tag) : BitVec 14 :=
  let r := crcBytes (0x2D01 : BitVec 14) (crcBits 0x2D01 0x3FFF (bitsLsb 28 n.toNat)) bytes
  tags.foldl (fun r t => crcBits 0x2D01 r (bitsLsb 4 t.toNat)) r

/-- MCHK: line number and metadata bytes 0 to 29 (11 R291). -/
def crc16 (n : YLine) (bytes : List Byte) : BitVec 16 :=
  crcBytes 0x8408 (crcBits 0x8408 0xFFFF (bitsLsb 28 n.toNat)) bytes

/-- A 64-bit value as an exact integer, signed. -/
abbrev sval (x : Word) : Int := x.toInt

/-- An exact integer taken mod 2^64. -/
abbrev word (x : Int) : Word := BitVec.ofInt 64 x

/-- Bit i of a word set or cleared. -/
def setBit {w : Nat} (x : BitVec w) (i : Nat) (b : Bool) : BitVec w :=
  if b then x ||| (1#w <<< i) else x &&& ~~~(1#w <<< i)

/-- Replaces bits [off + n − 1 : off] by the low bits of a value. -/
def setField {w : Nat} (x : BitVec w) (off n : Nat) (v : Nat) : BitVec w :=
  let mask : BitVec w := BitVec.ofNat w ((2 ^ n - 1) * 2 ^ off)
  (x &&& ~~~mask) ||| (BitVec.ofNat w (v % 2 ^ n * 2 ^ off))

/-- Bits [off + n − 1 : off] as a number. -/
def getField {w : Nat} (x : BitVec w) (off n : Nat) : Nat := x.toNat / 2 ^ off % 2 ^ n

/-- Number of significant bits of a magnitude, at least 1 (04 R106). -/
def sigBits (v : Nat) : Nat := max 1 (if v = 0 then 0 else Nat.log2 v + 1)

/-- Ceiling of a division. -/
def ceilDiv (a b : Nat) : Nat := (a + b - 1) / b

end Sys2Proof
end

