-- ==== Sys2Proof/Machine/State.lean ====
section
/-! DEFINITION. The state of the L96 as plain data: 96 cores, 12 sheds, all memory, two yards, the journal, the Gate, the
mailboxes, the Halyard ports, the steward and the pins, with the queue of waiting commands; and the state at the entry to
ST6 after a cold start. -/

namespace Sys2Proof.Machine

open Sys2Proof

/-! ## A ledger core -/

/-- A general register: value, tag (02 Table 2.1) and collision mark (10 R265). -/
structure GReg where
  val : Word
  tag : Tag
  mark : Option Word
  deriving DecidableEq, Repr

/-- A capability register: cursor, high word and validity (02 Table 2.11). -/
structure Cap where
  cursor : Word
  high : Word
  valid : Bool
  deriving DecidableEq, Repr

/-- The null capability (02 R16). -/
def Cap.null : Cap := ⟨0, 0, false⟩

/-- A register holding zero with tag BIN. -/
def GReg.zero : GReg := ⟨0, 0, none⟩

/-- One of the four register banks (02 Table 2.1, 07 R201). Bit i of `p` is P[i]; bit 0 is not used. -/
structure Bank where
  g : Vector GReg 16
  c : Vector Cap 16
  p : BitVec 8
  pcc : Cap
  deriving DecidableEq, Repr

/-- The shadow slots that entry to one depth fills (07 Table 7.6). -/
structure Shadow where
  pcc : Cap
  tpcc : Cap
  status : Word
  pred : BitVec 8
  resume : Word
  cause : Word
  faddr : Word
  mh : Word
  ml : Word
  skip : BitVec 2
  deriving DecidableEq, Repr

/-- What a core is doing as the steward sees it (07 R209–R211, 09 R247, 17 R414). -/
inductive CoreRun where
  /-- Held by the steward: before the first entry to vector 0. -/
  | stopped
  | running
  /-- Stopped by a control-store error at a word, found at a value of TIMER (09 R247, R250). -/
  | csError (addr : BitVec 13) (groups : BitVec 8) (malformed : Bool) (time : Word)
  /-- Stopped by a double exception (1), a hang (2) or a parity error (3), before its dump. -/
  | fatal (e : ExcOperand) (reason : Nat)
  | paddock
  deriving DecidableEq, Repr

/-- The transfer a delay slot belongs to (03 R84–R88): its target when taken, whether the slot is annulled, and whether
the target is an S_TPCC that `RETX` has still to check (07 R206). `begun` is the length in bytes of a slot instruction that
has issued and waits or has committed progress, 0 before (07 R198). -/
structure Delay where
  target : Option Cap
  annul : Bool
  check : Bool
  begun : Nat
  deriving DecidableEq, Repr

/-- A pipelined floating-point result still due (04 R129): the register it lands in, of which bank, with its tag and the
sticky flags it sets. `pair` is a 128-bit result in G(r):G(r+1). -/
structure FpDue where
  bank : Fin 4
  reg : BitVec 4
  pair : Bool
  val : BitVec 128
  tag : Tag
  sticky : BitVec 5
  deriving DecidableEq, Repr

/-- A write: bytes at an address with the writer's tag of each touched word (08 R226, 02 R33). A write without bytes is that of
`TAGSET` or `TAGCODE`: it retags whole words from an 8 B-aligned address on and leaves their data (02 R34, 03 R97). -/
structure Write where
  addr : Nat
  bytes : List Byte
  tags : List Tag
  deriving DecidableEq, Repr

/-- Bytes of the range that a write covers. -/
def Write.len (w : Write) : Nat := if w.bytes = [] then 8 * w.tags.length else w.bytes.length

/-- A store-buffer entry: the writes merged into one 64 B line, oldest first (08 R226). -/
structure SbEntry where
  line : Nat
  writes : List Write
  deriving DecidableEq, Repr

/-- What a core's instruction is waiting for (09 Table 9.4 codes 0x08–0x0B, 08 R231). -/
inductive Wait where
  | claim
  | mirror
  | descriptor
  | peer
  | detSlot
  deriving DecidableEq, Repr

/-- A code word whose tag the core changed in the 32 B from `start` on, the address after the instruction that changed it, with the
tag it had before. An instruction in those 32 B may still execute the old content (03 R93); `follows` marks a word of the instruction at
`start` itself, which does so when it is the one that follows at once (03 R94). -/
structure Ahead where
  word : Nat
  old : Tag
  start : Nat
  follows : Bool
  deriving DecidableEq, Repr

/-- What a specifier names. -/
inductive Place where
  | reg (r : BitVec 4)
  | mem (cap : Cap) (addr : Int)
  | imm (v : Word)
  deriving DecidableEq, Repr

/-- An operand resolved from the registers at issue (03 R72): its number (0 A, 1 B, 2 C), its place, the pointer word of
mode 7 under its capability, the index register of mode 2, and the cursor update of modes 3 and 4. -/
structure Opd where
  n : Nat
  place : Place
  ptr : Option (Cap × Int) := none
  idx : Option (BitVec 4) := none
  upd : Option (BitVec 4 × Int) := none
  deriving DecidableEq, Repr

/-- What a string instruction takes at issue and keeps until it is over: its operands, and the bytes of the operands that it
reads whole, in the order its plan names them (03 R72, 06 R155). -/
structure Issued where
  opds : List Opd
  data : List (List Byte)
  deriving DecidableEq, Repr

/-- An instruction that has issued and is not over, known by its opcode, length and fields: it waits, or has committed progress (08 R216,
09 R243). A string instruction keeps what it took at issue. -/
structure Held where
  opc : Nat
  len : Nat
  w : L64
  kept : Option Issued
  deriving DecidableEq, Repr

/-- The microcode engine while a routine runs: the word it stands at, its return stack (top first, at most four), loop counter,
micro-temporaries, work buffer and commit buffer; the last three by index, newest first, as 64 data bits and a tag (09 Table 9.2,
Table 9.3). -/
structure Engine where
  addr : BitVec 13
  stack : List (BitVec 13)
  counter : BitVec 16
  temps : List (BitVec 4 × BitVec 68)
  work : List (BitVec 4 × BitVec 68)
  staged : List (Bool × BitVec 4 × BitVec 68)
  deriving DecidableEq, Repr

/-- What a core's fatal stop leaves for the steward: TIMER when the event was found (17 Table 17.5), and the session and request ID of
the segments that accepted writes then (16 R404). -/
structure StopNote where
  time : Word
  open_ : List (BitVec 16 × Word)
  deriving DecidableEq, Repr

/-- One ledger core. -/
structure Core where
  run : CoreRun
  banks : Vector Bank 4
  shadows : Vector Shadow 4
  depth : Fin 4
  status : Word
  flags : Word
  fpctl : Word
  resume : Word
  mh : Word
  ml : Word
  /-- The outstanding product MH, ML (04 R106). -/
  product : Option (Word × Word)
  fpq : List FpDue
  zone : Word
  currency : Word
  cause : Word
  faddr : Word
  hpcc : Cap
  hdcc : Cap
  tcmp : Word
  corecfg : Word
  jopen : Bool
  segno : BitVec 48
  sidx : BitVec 16
  slot : BitVec 5
  rid : Word
  /-- Submission opcode `WAITD` latched (12 R315). -/
  subOpc : Byte
  /-- Segments sealed since the `WAITD` that took a request, by session and request ID (12 R314). -/
  sealedIn : List (BitVec 16 × Word × Nat)
  delay : Option Delay
  /-- The grace after `RETX` (07 R207). -/
  grace : Bool
  /-- The older instruction of a pair has completed and the younger has not (08 R220). -/
  midPair : Bool
  /-- The first instruction after a `RETX` to depth 0 issues without a single step (10 R282). -/
  stepSkip : Bool
  /-- Reservation: the `LRSV` address in main memory (04 R115). -/
  resv : Option Nat
  sbuf : List SbEntry
  wait : Option Wait
  held : Option Held
  /-- Port-A uses that the instruction in hand meets in the shed window; empty but within SHED_WINDOW_ACCESS (10 R262). -/
  ports : List PortHit
  /-- The instruction in hand is micro-coded, so a refused word is presented again (10 R268). -/
  portMicro : Bool
  /-- An instruction that issues only begins its microcode routine; false but within CONTROL_STORE_ERROR (09 R238). -/
  beginOnly : Bool
  /-- The fatal stop that waits for its dump (07 R209, R210). -/
  stop : Option StopNote
  /-- The block buffer of deterministic mode: the 64 B block of main memory fetched last, by line number, with the tags it was fetched
  with (08 R468). -/
  block : Option (Nat × List Tag)
  /-- Rows in which SECDED has corrected a word, with TIMER, within the last second (17 R415). -/
  rowFixes : List (Nat × Word)
  /-- FADDR of a JOURNAL_FAULT 0x0003 that a rollback made by another still owes the core (12 R324). -/
  owedFault : Option Word
  /-- Words that the core may still hold fetched ahead of its own stores (03 R93–R95). -/
  ahead : List Ahead
  ien : BitVec 4
  /-- Both yards hold a deterministic slot for the core (08 R231). -/
  detSlot : Bool
  /-- Latched STEWARD_SIGNAL: code and argument (07 Table 7.7). -/
  steward : Option (BitVec 16 × Word)
  dbgHalt : Bool
  peers : List (CoreId × Word)
  dbgctl : BitVec 6
  iam : Word
  dam : Word
  damask : Word
  corr : BitVec 16
  uncorr : BitVec 16
  /-- Spare-row map: failed row of the bank, and the spare that stands in for it (10 R272). -/
  spareMap : List (Nat × Nat)
  /-- Spare rows that failed a march (10 R272). -/
  deadSpares : List Nat
  /-- Row or spare that the bank scrubber checks next, 0 to 16,415 (10 R263). -/
  scrubNext : Nat
  /-- Rows recorded as unrepaired (10 R277). -/
  unrepaired : List Nat
  /-- Rows that the next march of their stripe maps to a spare (17 R415). -/
  weakRows : List Nat
  /-- Branch-predictor counters that differ from 0b01, by index (08 R222). -/
  predictor : List (Nat × BitVec 2)
  /-- The control store: none while it has not been loaded, else the words that differ from the base image, by rising address, fields
below parity (09 R238, R239). -/
  cs : Option (List (Nat × BitVec 136))
  /-- The engine while a routine of the instruction in hand has run some words and not committed (09 R246). -/
  engine : Option Engine
  /-- Control-store errors: word address and TIMER (09 R250). -/
  csHist : List (BitVec 13 × Word)
  /-- Presentations so far of a refused commit word (10 R268). -/
  represented : Nat
  /-- A march failed to find a spare: paddock once the request settles (10 R277). -/
  paddockDue : Bool
  /-- In paddock by `CORE_RETIRE` (17 R421). -/
  retired : Bool
  /-- DT.EN as it stood before paddock, which `CORE_RELEASE` restores (14 Table 14.6). -/
  savedEn : Bool
  deriving DecidableEq, Repr

/-! ## Sheds, memory and yards -/

/-- State of an L2 line (10 R280); a line in state I is not listed. -/
inductive L2State where
  | m
  | e
  | s
  deriving DecidableEq, Repr

/-- A stripe that a shed's march engine has borrowed, and its phase: copy (0), test (1) or restore (2) (10 Table 10.5). -/
structure March where
  core : CoreId
  stripe : Nat
  phase : Nat
  deriving DecidableEq, Repr

/-- One shed: retention (18 R438), clock and voltage (18 R441), key cache (11 R308) and L2 lines (10 R280). -/
structure Shed where
  retained : Bool
  mhz : Nat
  mv : Nat
  stretched : Bool
  /-- Periods of 100 µs throttled without a break (18 R446). -/
  throttled : Nat
  /-- A THROTTLE_START of the present spell is in the log, and its 10 ms period in which the last migration
  began (18 R446, R449). -/
  limited : Bool
  migrations : Nat
  /-- Stretches not yet logged: second of TIMER, count, deepest fall in mV (18 R443). -/
  droops : Option (Nat × Nat × Nat)
  /-- Larger frequency loss of the shed's two process monitors, in 0.01 % (18 R441). -/
  loss : Nat
  /-- Attribute bytes by page, most recently used first. -/
  keyCache : List (Nat × Byte)
  march : Option March
  /-- Stripes that wait for the march engine (17 R415). -/
  marchDue : List (CoreId × Nat)
  l2 : List (Nat × L2State)
  deriving DecidableEq, Repr

/-- Directory record of one 64 B line (10 R280); a line in state I is not listed. -/
inductive Dir where
  | shared (sheds : BitVec 12)
  | owned (shed : ShedId)
  deriving DecidableEq, Repr

/-- Memory of every unit under one key space: bytes and word tags, each listed only where it differs from what memory
initialisation writes (data zero, tag UNINIT: 02 Table 2.7). `data` is keyed by byte key, `tags` by word key. -/
structure Memory where
  data : List Host.Cell
  tags : List (Nat × Tag)
  deriving DecidableEq, Repr

/-- A claim of a journal segment on one 64 B line with its undo copy (12 R320); the bits of `bad` name the undo words with an uncorrectable
error (12 R336). -/
structure Claim where
  line : Nat
  segno : Nat
  undo : List Byte
  undoTags : List Tag
  bad : BitVec 8
  deriving DecidableEq, Repr

/-- A claim request that waits at a yard (12 R323). -/
structure ClaimReq where
  line : Nat
  segno : Nat
  owner : Owner
  /-- CAUSE.OPND of the operand that asks. -/
  opnd : Nat
  deriving DecidableEq, Repr

/-- A record in a journal ring (12 R327, R333): its place in lines, and its acknowledgement. `mine` is false for a record
the partner sent and this module applied (15 R391 step 3). -/
structure RingRec where
  rseq : Nat
  pos : Nat
  nlines : Nat
  segno : Nat
  sidx : BitVec 16
  rid : Word
  mine : Bool
  acked : Bool
  /-- The stream was fenced, or the record refused, before an acknowledgement. -/
  locally : Bool
  /-- The record stands in the ring: it has been handed over, or applied. -/
  written : Bool
  /-- PROD after the Gate copied it to the host ring (12 R338). -/
  streamEnd : Option Nat
  deriving DecidableEq, Repr

/-- A yard's journal ring (12 R333, R334): lines written since cold start, the line count at its tail, the records whose
lines have not been written over, reservations, next RSEQ, and whether the low mark was crossed last (12 R335). -/
structure Ring where
  lines : Nat
  tail : Nat
  recs : List RingRec
  reserved : Nat
  nextRseq : Nat
  hold : Bool
  deriving DecidableEq, Repr

/-- A journal-stream descriptor (12 Table 12.6). -/
structure StreamDesc where
  base : Word
  log2sz : BitVec 6
  state : BitVec 2
  prod : Nat
  cons : Nat
  first : Nat
  deriving DecidableEq, Repr

/-- One yard: channels and positions (11 R288, R297–R303), status word fields (11 Table 11.5), directory, scrubber,
journal. `missing` is the position whose chunk is missing; in mode 0b10 only for lines at or above `rptr`. -/
structure YardState where
  mode : BitVec 2
  spare : BitVec 4
  failed : BitVec 4
  rate : Bool
  lostUp : Bool
  rptr : Nat
  pcount : Nat
  /-- Physical channel of each logical position. -/
  posMap : Vector (Fin 11) 10
  deadChannels : List (Fin 11)
  /-- Chunks that failed their checks in the last 1 ms: channel, line and TIMER (11 R297). -/
  fails : List (Fin 11 × Nat × Word)
  missing : Option (Fin 10)
  initialised : Bool
  dir : List (Nat × Dir)
  patrolNext : Nat
  sweepHours : Nat
  scrubbed : Nat
  corrections : Nat
  spareCheck : Nat
  ring : Ring
  claims : List Claim
  claimReqs : List ClaimReq
  stream : StreamDesc
  deriving DecidableEq, Repr

/-! ## Journal and Gate -/

/-- Life of a journal segment (12 R313–R319). -/
inductive SegState where
  | writing
  | sealed
  | handed
  deriving DecidableEq, Repr

/-- One journal segment that is open, or sealed and not yet forgotten. `request` is set from `SEAL` or `SEALA` to the seal
point, true for `SEALA`; `outcome` is true for mirrored and false for sealed locally only. -/
structure Segment where
  segno : Nat
  core : BitVec 8
  sidx : BitVec 16
  rid : Word
  entry : Nat
  state : SegState
  request : Option Bool
  bySeala : Bool
  /-- The record, from the seal point until it is handed over. -/
  record : List Byte
  rseq : Nat
  outcome : Option Bool
  deriving DecidableEq, Repr

/-- What the Gate keeps of a request that it completed while its RID stays in the window (14 Table 14.11): whether it was dispatched
more than once, its completion STATUS word (APPSTAT in bits 15 to 8) and FLAGS, and its segments past their seal point and
acknowledged at completion. -/
structure PastRequest where
  rid : Word
  again : Bool
  status : BitVec 16
  flags : Byte
  segs : Nat
  acked : Nat
  /-- Whether it was a batch (14 R376). -/
  batch : Bool
  deriving DecidableEq, Repr

/-- A session context (13 Table 13.8), with the mark that EXPORTED has been received (15 R397) and the mark that its queued
requests stay queued while a `SESSION_MOVE` MODE 0 waits (14 Table 14.6). -/
structure Session where
  wbase : Word
  wmap : Word
  state : BitVec 2
  replica : Bool
  owner : Owner
  dldef : Nat
  ndone : BitVec 32
  ndup : BitVec 16
  lastpos : Nat
  rptr : Vector (BitVec 26) 64
  exported : Bool
  held : Bool
  past : List PastRequest
  deriving DecidableEq, Repr

/-- Where a fetched request stands (13 R355–R358, 16 R404–R406). -/
inductive ReqPhase where
  | queued
  /-- Waits for its payload from the host (R355 step 1). -/
  | payload (o : Owner) (slot : Fin 32)
  /-- Its descriptor stands in a slot that no `WAITD` has taken. -/
  | offered (o : Owner) (slot : Fin 32)
  | taken (o : Owner) (slot : Fin 32)
  | posted
  /-- Its core was lost, with a segment of it that still accepted writes or with none (16 Table 16.3). -/
  | lost (o : Owner) (open_ : Bool)
  /-- To be re-dispatched once the steward returns it from the owner that lost it (16 R406). -/
  | returning (o : Owner)
  deriving DecidableEq, Repr

/-- A request fetched and not yet completed. -/
structure Request where
  id : Nat
  /-- The SQ it was fetched from; none once an FLR has deleted that (13 R342). -/
  sq : Option QueueId
  sidx : BitVec 16
  rid : Word
  entry : List Byte
  deadline : Word
  phase : ReqPhase
  /-- Place in dispatch order. -/
  order : Nat
  /-- Times dispatched. -/
  runs : Nat
  /-- Times lost with its core (16 R405). -/
  losses : Nat
  /-- Dispatched before and rolled back (STATUS.DUP). -/
  dup : Bool
  /-- The SQs of the entries attached to it, in attach order (13 R351). -/
  attached : List (Option QueueId)
  /-- Segments sealed in the current run (12 R314 ENTRY), in all runs, and of those acknowledged or local. -/
  runSegs : Nat
  segs : Nat
  acked : Nat
  local_ : Nat
  /-- Line position of the pennant of the last sealed segment, with its home yard's line count. -/
  pennant : Option Nat
  csum : List Byte
  appstat : Byte
  deriving DecidableEq, Repr

/-- An entry of the outcome ring (14, before R374). -/
structure OutcomeEntry where
  sidx : BitVec 16
  rid : Word
  /-- Device status (13 Table 13.7); 0xFF for a request rolled back and not re-run. -/
  status : Byte
  flags : Byte
  cause : Byte
  batch : Bool
  nent : Nat
  segs : Nat
  acked : Nat
  deriving DecidableEq, Repr

/-- A submission queue (13 R343). -/
structure Sq where
  valid : Bool
  cq : QueueId
  base : Word
  size : Nat
  head : Nat
  tail : Nat
  /-- Doorbell TIMER of each exposed entry not yet fetched, oldest first. -/
  stamps : List Word
  stopped : Bool
  deriving DecidableEq, Repr

/-- A completion queue (13 R345). -/
structure Cq where
  valid : Bool
  vec : Fin 64
  base : Word
  size : Nat
  head : Nat
  tail : Nat
  phase : Bool
  deriving DecidableEq, Repr

/-- An MSI-X table entry (13 Table 13.3). -/
structure Msix where
  addr : Word
  data : BitVec 32
  masked : Bool
  pending : Bool
  deriving DecidableEq, Repr

/-- A dispatch-table entry (13 Table 13.9). -/
structure DispEntry where
  en : Bool
  nslot : Nat
  psz : Nat
  pbase : Nat
  deriving DecidableEq, Repr

/-- A management mailbox (13 Table 13.12, 14 R365). `progress` counts what an unfinished command has done so far;
`started` marks a command that has begun. -/
structure Mailbox where
  req : List Byte
  rsp : List Byte
  owner : BitVec 2
  tag : BitVec 32
  busy : Bool
  done : Bool
  ien : Bool
  stored : Option (BitVec 32 × List Byte)
  /-- Place in ring order. -/
  ring : Nat
  started : Bool
  progress : Nat
  deriving DecidableEq, Repr

/-! ## Halyard -/

/-- What this module applies of a stream of a partner: APP, the credit limit granted, and whether every record is refused (15 R388, R391,
R394). -/
structure InStream where
  app : Nat
  granted : BitVec 32
  refuseAll : Bool
  deriving DecidableEq, Repr

/-- A Halyard port (15 R383–R396). -/
structure Port where
  linkUp : Bool
  paired : Bool
  inForce : Bool
  pserial : Word
  /-- The port sends only NOTREADY (R395). -/
  notReady : Bool
  /-- The partner's last state frame was NOTREADY (R395). -/
  absent : Bool
  partner : Word
  /-- Next LSEQ to assign; next LSEQ expected (ACKSEQ); partner's ACKSEQ. -/
  nextLseq : BitVec 32
  expect : BitVec 32
  peerAck : BitVec 32
  /-- Sequenced frames not acknowledged, oldest first: LSEQ and bytes (R386). -/
  replay : List (BitVec 32 × List Byte)
  /-- Sequenced header-only frames with their LSEQ that wait for room in the replay buffer: type, flags and ARG (R386). -/
  waiting : List (BitVec 32 × Byte × Byte × Word)
  replays : Nat
  nakSent : Bool
  /-- The partner's two streams as this port knows them, and those heard on it, one bit each (15 R389). -/
  inA : InStream
  inB : InStream
  heard : BitVec 2
  deriving DecidableEq, Repr

/-- One mirror stream: what this module sends of its own records (fence, credits used and limit, next RSEQ to send, next
RSEQ in the last HELLO, partner's APP) (15 R388–R394). -/
structure MirrorStream where
  fenced : Bool
  /-- Every port that carried it has gone down or received NOTREADY, and none has paired since (15 R393, R472). -/
  cut : Bool
  /-- RSEQ from which the pairing in force sends records (15 R394). -/
  start : Nat
  used : Nat
  limit : BitVec 32
  nextSend : Nat
  hello : Nat
  peerApp : Nat
  deriving DecidableEq, Repr

/-! ## Steward and pins -/

/-- A log record (17 Table 17.5). -/
structure LogRec where
  seq : Nat
  cls : Byte
  sev : Byte
  unit : BitVec 16
  time : Word
  code : BitVec 32
  aux : BitVec 32
  addr : Word
  deriving DecidableEq, Repr

/-- Low-speed and supply pins (19 Table 19.2); the straps as sampled at ST0. -/
structure Pins where
  vaux : Bool
  vin : Bool
  pwrEn : Bool
  /-- PERST_N low. -/
  perst : Bool
  refclk : Bool
  ready : Bool
  safe : Bool
  thermTrip : Bool
  /-- TRST_N high: the TAP is out of reset (19 Table 19.2). -/
  trstHigh : Bool
  bootSel : BitVec 2
  smbAddr : BitVec 3
  deriving DecidableEq, Repr

/-- What the steward is in the middle of (18 R428, R432, 19 R456). -/
inductive StartKind where
  | cold
  | warm
  | standbyExit
  deriving DecidableEq, Repr

/-- The reset a module `RESTART` has posted (14 R373), and what kind. -/
inductive PendingReset where
  | warm
  | cold
  deriving DecidableEq, Repr

/-- What the active steward pair holds as the owner of sessions: its segment, and the request that it took last (12 R312, 13 R354). A
failover goes on with it. -/
structure StewardSession where
  jopen : Bool
  segno : BitVec 48
  sidx : BitVec 16
  slot : BitVec 5
  rid : Word
  subOpc : Byte
  dup : Bool
  sealedIn : List (BitVec 16 × Word × Nat)
  deriving DecidableEq, Repr

/-- The steward's own state (17 R418–R421, 18, 19 R453, R459). -/
structure Steward where
  stage : Nat
  kind : StartKind
  /-- Standby: every domain but PD00 off. -/
  standby : Bool
  /-- PWR_EN has been raised in standby, and ST1 waits for VIN (18 Table 18.3, 19 R457). -/
  exitDue : Bool
  /-- A warm reset is in its acknowledgement wait (18 R432 step 3). -/
  warmWait : Bool
  /-- ST1's work is done and ST2 waits for PERST_N. -/
  st1Done : Bool
  bootFailed : Bool
  pendingReset : Option PendingReset
  fatal : Bool
  /-- A DATA_LOSS or FATAL record since cold start (17 R421). -/
  dataLoss : Bool
  policy : Policy
  /-- Policy block of the boot flash. -/
  policyBlock : Option Policy
  /-- Ring size in use: S = 2^ringlog MiB, fixed at ST3 (11 R286). -/
  ringlog : Nat
  log : List LogRec
  nextSeq : Nat
  /-- Pair B is active; no pair is standby. -/
  pairB : Bool
  standbyOut : Bool
  /-- TIMER of the last mismatch of pairs A and B, and whether the pair that failed last stays out (17 R418). -/
  mismatchA : Option Word
  mismatchB : Option Word
  benched : Bool
  /-- A failed pair runs its self-test: the checker word and TIMER of its mismatch. -/
  testing : Option (BitVec 32 × Word)
  fuseLevel : Nat
  /-- Anti-rollback level of the boot image that ST1 verified (14 R373). -/
  imageLevel : Nat
  patches : List (BitVec 32)
  /-- Microwords that accepted patches replace in the merged image, by rising address (09 R253, R254). -/
  replaced : List (Nat × BitVec 128)
  failedHops : List (Fin 17 × Bool)
  /-- Regulator phases disabled, by domain (17 R419). -/
  lostPhases : List (Fin 30 × Byte)
  setAside : List Nat
  suspects : List Nat
  fencesDue : BitVec 2
  /-- HOLD of a `MIRROR_FENCE` before ST5 (15 R395). -/
  holdDue : Bool
  /-- Ports at whose next pairing a `MIRROR_PAIR` lifts the fences (15 R393). -/
  lift : BitVec 2
  /-- Module power in 0.1 W and hottest thermal sensor of the last period (14 Table 14.8). -/
  power : Nat
  hottest : Int
  /-- Recovery image: bytes by offset, and its state (19 Table 19.4). -/
  recovery : List (Nat × Byte)
  recoveryState : Nat
  smbOffset : Nat
  smbAlert : Bool
  /-- Result of the verification of the image received over SMBus, while it is under way (19 Table 19.4). -/
  recoveryOk : Bool
  /-- TAP instruction loaded last. -/
  jtag : Jtag
  acktmo : Nat
  /-- Migrations in progress: source, target and the sessions that wait (18 R446, 14 R367). -/
  moves : List (CoreId × CoreId × List Nat)
  /-- TIMER at the last retirement of a group for its age (18 R447). -/
  agedAt : Option Word
  own : StewardSession
  deriving DecidableEq, Repr

/-- What the module drives on a signal (19 Table 19.2). -/
inductive Level where
  | low | high | highZ
  deriving DecidableEq, Repr

/-- One thing the device puts out, in order (13 R12, R338, 15 R382). -/
inductive Output where
  | completion (cq : QueueId) (index : Nat) (bytes : List Byte)
  | msix (vec : Fin 64)
  | streamWrite (y : Yard) (off : Nat) (bytes : List Byte)
  | frame (port : PortId) (bytes : List Byte)
  | payloadRead (id : Nat)
  | smbRead (bytes : List Byte)
  /-- A write to the recovery address acknowledged or not (19 R454). -/
  | smbAck (addr : Nat) (ok : Bool)
  /-- A read of the external flash: command, address, bytes (19 R455). -/
  | xspiRead (command : Byte) (addr len : Nat)
  /-- The data register that a TAP instruction selects, as it captures, first bit first (19 R459). -/
  | tdo (bits : List Bool)
  /-- The boundary-scan register as it captures (19 R459). -/
  | boundary (cells : List (Signal × Bool))
  | stewardDispatch
  /-- An AER error message of a log severity (17 Table 17.2). -/
  | aer (sev : Byte)
  deriving DecidableEq, Repr

/-- Why the machine stops. No command of the L96 is without an effect in the spec, so nothing raises it; the type is closed
and kept for `step`'s form. Safe. -/
inductive Fault where
  /-- Raised by no meaning. Safe. -/
  | unreachable
  deriving DecidableEq, Repr

/-- Why a command has no meaning here. -/
inductive Refusal where
  /-- A command of the table without a meaning yet: raised only by an arm of `exec`. Safe. -/
  | notModelled (mnemonic : String)
  deriving DecidableEq, Repr

/-- The L96 module. -/
structure State where
  cores : Vector Core 96
  sheds : Vector Shed 12
  mem : Memory
  /-- REF (false) or CHG (true) set requests on their way to a yard: page number and kind (11 R309). -/
  refChg : List (Nat × Bool)
  /-- Lines in the L1 D-caches, by core and most recently used first (10 Table 10.6). -/
  l1d : List (CoreId × Nat)
  /-- Lines in the L1 I-caches with the tags they were fetched with, by core and most recently used first (10 Table 10.6). -/
  l1i : List (CoreId × Nat × List Tag)
  yardA : YardState
  yardB : YardState
  segCounter : Nat
  segments : List Segment
  /-- Session contexts that differ from a closed one never opened, by index. -/
  sessions : List (Nat × Session)
  sqs : Vector Sq 64
  cqs : Vector Cq 64
  qerr : BitVec 64
  qen : Bool
  /-- D3hot: the Gate stops fetching (18 Table 18.6). -/
  d3hot : Bool
  mbvec : BitVec 6
  msix : Vector Msix 64
  /-- Dwords of configuration space that differ from their reset value, by rising offset (13 Table 13.2). -/
  config : List (Nat × BitVec 32)
  /-- SQ that was served last (13 R343). -/
  lastSq : QueueId
  requests : List Request
  nextReq : Nat
  nextOrder : Nat
  outcomes : List OutcomeEntry
  dispatch : Vector DispEntry 97
  mailboxes : Vector Mailbox 8
  nextRing : Nat
  ports : Vector Port 2
  streamA : MirrorStream
  streamB : MirrorStream
  steward : Steward
  pins : Pins
  timer : Word
  out : List Output
  /-- The model's own counter of free values used (log entry 3). -/
  fresh : Nat
  /-- Commands waiting, first in first out. -/
  pending : List Instr
  deriving DecidableEq, Repr

/-! ## Reset -/

/-- A bank as R18 leaves it, with PCC = HPCC and C15 = HDCC (02 R18). -/
def Bank.reset (hpcc hdcc : Cap) : Bank :=
  { g := Vector.replicate 16 GReg.zero
    c := (Vector.replicate 16 Cap.null).set 15 hdcc
    p := 0
    pcc := hpcc }

/-- Shadow slots at reset (07 R211). -/
def Shadow.zero : Shadow := ⟨Cap.null, Cap.null, 0, 0, 0, 0, 0, 0, 0, 0⟩

/-- A core as it stands when the sheds come online: every register at its Reset value, HPCC and HDCC null
(02 Tables 2.3–2.6, R18; 18 Table 18.4), held by the steward. Its scrubber starts at row 0, where 10 R263 gives no row to start
at (DESIGN CHOICE, log entry 156). -/
def Core.reset : Core where
  run := .stopped
  banks := Vector.replicate 4 (Bank.reset Cap.null Cap.null)
  shadows := Vector.replicate 4 Shadow.zero
  depth := 0
  status := 0xA
  flags := 0
  fpctl := 0
  resume := 0
  mh := 0
  ml := 0
  product := none
  fpq := []
  zone := 3
  currency := 0x0000010000000000
  cause := 0
  faddr := 0
  hpcc := Cap.null
  hdcc := Cap.null
  tcmp := 0xFFFFFFFFFFFFFFFF
  corecfg := 0x1E
  jopen := false
  segno := 0
  sidx := 0
  slot := 0
  rid := 0
  subOpc := 0
  sealedIn := []
  delay := none
  grace := false
  midPair := false
  stepSkip := false
  resv := none
  sbuf := []
  wait := none
  held := none
  ports := []
  portMicro := false
  beginOnly := false
  stop := none
  block := none
  rowFixes := []
  owedFault := none
  ahead := []
  ien := 0b1010
  detSlot := false
  steward := none
  dbgHalt := false
  peers := []
  dbgctl := 0
  iam := 0
  dam := 0
  damask := 0
  corr := 0
  uncorr := 0
  spareMap := []
  deadSpares := []
  scrubNext := 0
  unrepaired := []
  weakRows := []
  predictor := []
  cs := some []
  engine := none
  csHist := []
  represented := 0
  paddockDue := false
  retired := false
  savedEn := false

/-- A shed in service at the lowest clock and its voltage (18 R441, Table 18.7; log entry 4), caches empty. -/
def Shed.reset : Shed := ⟨false, 400, 600, false, 0, false, 0, none, 0, [], none, [], []⟩

/-- Memory as initialisation leaves it: nothing differs from data zero, tag UNINIT (10 R273, 11 R306). -/
def Memory.empty : Memory := ⟨[], []⟩

/-- An empty ring (18 Table 18.4). -/
def Ring.empty : Ring := ⟨0, 0, [], 0, 0, false⟩

/-- A stream descriptor in state OFF (12 Table 12.6). -/
def StreamDesc.off : StreamDesc := ⟨0, 0, 0, 0, 0, 0⟩

/-- A yard fully protected, position p on channel p and channel 10 spare (11 R288, Table 11.5). -/
def YardState.reset : YardState where
  mode := 0
  spare := 10
  failed := 0xF
  rate := false
  lostUp := false
  rptr := 0
  pcount := 0
  posMap := #v[0, 1, 2, 3, 4, 5, 6, 7, 8, 9]
  deadChannels := []
  fails := []
  missing := none
  initialised := true
  dir := []
  patrolNext := 0
  sweepHours := 8
  scrubbed := 0
  corrections := 0
  spareCheck := 0
  ring := Ring.empty
  claims := []
  claimReqs := []
  stream := StreamDesc.off

/-- A session context never opened (13 Table 13.8). -/
def Session.closed : Session :=
  ⟨0, 0, 0, false, 0, 100, 0, 0, 0, Vector.replicate 64 0x3FFFFFF, false, false, []⟩

/-- An SQ that does not exist. -/
def Sq.none : Sq := ⟨false, 0, 0, 0, 0, 0, [], false⟩

/-- A CQ that does not exist. -/
def Cq.none : Cq := ⟨false, 0, 0, 0, 0, 0, true⟩

/-- A masked MSI-X entry. -/
def Msix.reset : Msix := ⟨0, 0, true, false⟩

/-- A dispatch-table entry with EN = 0 (13 Table 13.9). -/
def DispEntry.off : DispEntry := ⟨false, 0, 0, 0⟩

/-- The steward's own entry 0x60 with EN = 0: PSZ reads 12, PBASE zero (13 R354). -/
def DispEntry.steward : DispEntry := ⟨false, 0, 12, 0⟩

/-- A mailbox at reset (13 Table 13.12). -/
def Mailbox.reset : Mailbox :=
  ⟨List.replicate 256 0, List.replicate 256 0, 0, 0, false, false, false, none, 0, false, 0⟩

/-- A Halyard port with no partner and no `MIRROR_PAIR` in force (18 Table 18.4). -/
def Port.reset : Port := ⟨false, false, false, 0, false, false, 0, 0, 0, 0, [], [], 0, false, ⟨0, 0, false⟩, ⟨0, 0, false⟩, 0⟩

/-- A mirror stream before any pairing (15 R388, R394). -/
def MirrorStream.reset : MirrorStream := ⟨false, false, 0, 0, 0, 0, 0, 0⟩

/-- Policy defaults (18 Table 18.9); SCLKMAX 0 stands for the part's limit. -/
def Policy.default : Policy := ⟨170, 85, 10, 0⟩

/-- The steward at the entry to ST6 after a cold start, with an empty log (17 R425, log entry 5). -/
def Steward.reset : Steward where
  stage := 6
  kind := .cold
  standby := false
  exitDue := false
  warmWait := false
  st1Done := true
  bootFailed := false
  pendingReset := none
  fatal := false
  dataLoss := false
  policy := Policy.default
  policyBlock := none
  ringlog := 10
  log := []
  nextSeq := 1
  pairB := false
  standbyOut := false
  mismatchA := none
  mismatchB := none
  benched := false
  testing := none
  fuseLevel := 0
  imageLevel := 0
  patches := [0, 0, 0, 0]
  replaced := []
  failedHops := []
  lostPhases := []
  setAside := []
  suspects := []
  fencesDue := 0
  holdDue := false
  lift := 0
  power := 0
  hottest := 0
  recovery := []
  recoveryState := 0
  smbOffset := 0
  smbAlert := false
  recoveryOk := false
  jtag := .idcode
  acktmo := 0
  moves := []
  agedAt := none
  own := ⟨false, 0, 0, 0, 0, 0, false, []⟩

/-- Pins at ST6: supplies good, READY and SAFE asserted, no strap pulled up (18 Table 18.2, 19 R452). -/
def Pins.reset : Pins := ⟨true, true, true, false, true, true, true, false, false, 0, 0⟩

/-- The L96 at the entry to ST6 after a cold start (00 R7, 18 Table 18.4). -/
def State.reset : State where
  cores := Vector.replicate 96 Core.reset
  sheds := Vector.replicate 12 Shed.reset
  mem := Memory.empty
  refChg := []
  l1d := []
  l1i := []
  yardA := YardState.reset
  yardB := YardState.reset
  segCounter := 0
  segments := []
  sessions := []
  sqs := Vector.replicate 64 Sq.none
  cqs := Vector.replicate 64 Cq.none
  qerr := 0
  qen := true
  d3hot := false
  mbvec := 0
  msix := Vector.replicate 64 Msix.reset
  config := []
  lastSq := 63
  requests := []
  nextReq := 0
  nextOrder := 0
  outcomes := []
  dispatch := (Vector.replicate 97 DispEntry.off).set 96 DispEntry.steward
  mailboxes := Vector.replicate 8 Mailbox.reset
  nextRing := 0
  ports := Vector.replicate 2 Port.reset
  streamA := MirrorStream.reset
  streamB := MirrorStream.reset
  steward := Steward.reset
  pins := Pins.reset
  timer := 0
  out := []
  fresh := 0
  pending := []

end Sys2Proof.Machine
end

