-- ==== Sys2Proof/Machine/Caps.lean ====
section
/-! DEFINITION. Capabilities: fields, bounds decode, representability and bounds setting (02 R37–R40, Tables 2.11, 2.12). -/

namespace Sys2Proof.Machine

open Sys2Proof

/-- Permission bits of a capability's high word (02 Table 2.11), by their position in [63:56]. -/
inductive Perm where
  | jrn | seal | sys | sc | lc | x | w | r
  deriving DecidableEq, Repr

/-- Bit position of a permission in the high word. -/
def Perm.bit : Perm → Nat
  | .jrn => 56 | .seal => 57 | .sys => 58 | .sc => 59 | .lc => 60 | .x => 61 | .w => 62 | .r => 63

/-- Whether a capability holds a permission. -/
def Cap.has (k : Cap) (p : Perm) : Bool := k.high.getLsbD p.bit

/-- KEY field. -/
def Cap.key (k : Cap) : BitVec 4 := k.high.extractLsb' 52 4
/-- OTYPE field. -/
def Cap.otype (k : Cap) : BitVec 4 := k.high.extractLsb' 48 4
/-- Exponent. -/
def Cap.e (k : Cap) : Nat := (k.high.extractLsb' 42 6).toNat
/-- Base mantissa. -/
def Cap.b (k : Cap) : Nat := (k.high.extractLsb' 21 21).toNat
/-- Top mantissa. -/
def Cap.t (k : Cap) : Nat := (k.high.extractLsb' 0 21).toNat
/-- A sealed capability grants nothing (02 R41). -/
def Cap.sealed (k : Cap) : Bool := k.otype != 0

/-- Base of the bounds (02 R37): the anchor at or below the cursor. -/
def Cap.base (k : Cap) : Int :=
  let blk : Int := 2 ^ (k.e + 21)
  let bofs : Int := k.b * 2 ^ k.e
  let cur : Int := k.cursor.toNat
  let c := cur % blk
  if c ≥ bofs then cur - c + bofs else cur - c - blk + bofs

/-- Length of the bounds (02 R37). -/
def Cap.len (k : Cap) : Int := (((k.t : Int) - k.b) % 2 ^ 21) * 2 ^ k.e

/-- Top of the bounds (02 R37). -/
def Cap.top (k : Cap) : Int := k.base + k.len

/-- Whether a cursor value lies in the window of a capability (02 R38). -/
def Cap.representable (k : Cap) (v : Int) : Bool :=
  decide (k.base ≤ v ∧ v < k.base + 2 ^ (k.e + 21) ∧ 0 ≤ v ∧ v < 2 ^ 64)

/-- A capability with its cursor moved; an unrepresentable cursor leaves it invalid (02 R39). -/
def Cap.withCursor (k : Cap) (v : Int) : Cap :=
  { k with cursor := word v, valid := k.valid && k.representable v }

/-- High word with the bounds fields replaced. -/
def Cap.withBounds (k : Cap) (e : Nat) (base top : Int) : Cap :=
  let b := ((base / 2 ^ e) % 2 ^ 21).toNat
  let t := ((top / 2 ^ e) % 2 ^ 21).toNat
  { k with high := setField (setField (setField k.high 42 6 e) 21 21 b) 0 21 t }

/-- Ceiling of an exact integer division by a power of two. -/
def ceilShift (x : Int) (e : Nat) : Int := -((-x) / 2 ^ e)

/-- The least exponent at or above `e` whose rounded-out span fits 2^21 − 1 units (02 R40); `fuel` bounds the search
by the 43 exponents that exist. -/
def leastExp (base top : Int) : Nat → Nat → Nat
  | 0, e => e
  | fuel + 1, e =>
    if ceilShift top e - base / 2 ^ e ≤ 2 ^ 21 - 1 then e else leastExp base top fuel (e + 1)

/-- The exponent of requested bounds (02 R40). -/
def boundsExp (base top : Int) : Nat := leastExp base top 43 0

/-- A capability over [base, top) with a cursor, permissions and key, exact where the bounds are (14, after Table 14.9). -/
def Cap.make (perms : Nat) (key : Nat) (base top : Int) (cursor : Word) : Cap :=
  let e := boundsExp base top
  let k : Cap := ⟨cursor, setField (setField 0 56 8 perms) 52 4 key, true⟩
  k.withBounds e base top

end Sys2Proof.Machine
end

