-- ==== Sys2Proof/Machine/Sparse.lean ====
section
/-! DEFINITION. Sparse tables: lists of (key, value) pairs in one canonical form, keys strictly rising and no entry equal to
the value an unlisted key reads as. -/

namespace Sys2Proof.Sparse

variable {α : Type}

/-- The value at a key; `d` is what an unlisted key reads as. -/
def get (d : α) : List (Nat × α) → Nat → α
  | [], _ => d
  | (k, v) :: t, a => if k = a then v else get d t a

/-- Puts a pair in its place by rising key. -/
def insert : List (Nat × α) → Nat → α → List (Nat × α)
  | [], a, v => [(a, v)]
  | (k, w) :: t, a, v => if a < k then (a, v) :: (k, w) :: t else (k, w) :: insert t a v

/-- Drops a key. -/
def erase (m : List (Nat × α)) (a : Nat) : List (Nat × α) :=
  m.filter fun e => decide (e.1 ≠ a)

/-- Writes a key; writing the value an unlisted key reads as removes the entry. -/
def set [DecidableEq α] (d : α) (m : List (Nat × α)) (a : Nat) (v : α) : List (Nat × α) :=
  if v = d then erase m a else insert (erase m a) a v

/-- The canonical form. -/
abbrev wf [DecidableEq α] (d : α) (m : List (Nat × α)) : Prop :=
  (m.map Prod.fst).Pairwise (· < ·) ∧ ∀ e ∈ m, e.2 ≠ d

end Sys2Proof.Sparse
end

