-- ==== Sys2Proof/Machine/Ops.lean ====
section
/-! DEFINITION. The named operations over cores, registers and memory; the log; core control space; and taking an exception
as one shared operation (07 R195, Table 7.4) with the double exception beside it (07 R209). -/

namespace Sys2Proof.Machine

open Sys2Proof

/-! ## Cores and registers -/

/-- A core of the module. -/
def State.core (s : State) (c : CoreId) : Core := s.cores[c]

/-- Shed of a core. -/
def shedOf (c : CoreId) : ShedId := ⟨c.val / 8, by have := c.isLt; omega⟩

/-- The module with one core replaced. -/
def State.setCore (s : State) (c : CoreId) (k : Core) : State :=
  { s with cores := s.cores.set c k }

/-- The module with one core changed. -/
def State.modCore (s : State) (c : CoreId) (f : Core → Core) : State := s.setCore c (f (s.core c))

/-- The current bank (07 R201). -/
def Core.bank (k : Core) : Bank := k.banks[k.depth]

/-- A core with its current bank changed. -/
def Core.modBank (k : Core) (f : Bank → Bank) : Core :=
  { k with banks := k.banks.set k.depth (f k.bank) }

/-- A G register of the current bank; G0 reads zero with tag BIN (02 R15). -/
def Core.getG (k : Core) (r : BitVec 4) : GReg := if r = 0 then GReg.zero else k.bank.g[r.toFin]

/-- Writes a G register of the current bank; a write to G0 is discarded (02 R15). -/
def Core.setGReg (k : Core) (r : BitVec 4) (v : GReg) : Core :=
  if r = 0 then k else k.modBank fun b => { b with g := b.g.set r.toNat v r.isLt }

/-- Writes value and tag of a G register, clearing its collision mark (10 R265). -/
def Core.setG (k : Core) (r : BitVec 4) (v : Word) (t : Tag) : Core := k.setGReg r ⟨v, t, none⟩

/-- A C register of the current bank; C0 reads null (02 R15, R16). -/
def Core.getC (k : Core) (r : BitVec 4) : Cap := if r = 0 then Cap.null else k.bank.c[r.toFin]

/-- Writes a C register of the current bank; a write to C0 is discarded (02 R15). -/
def Core.setC (k : Core) (r : BitVec 4) (v : Cap) : Core :=
  if r = 0 then k else k.modBank fun b => { b with c := b.c.set r.toNat v r.isLt }

/-- A predicate of the current bank; P0 reads true (02 R15). -/
def Core.getP (k : Core) (p : BitVec 3) : Bool := if p = 0 then true else k.bank.p.getLsbD p.toNat

/-- Writes a predicate of the current bank; a write to P0 is discarded (02 R15). -/
def Core.setP (k : Core) (p : BitVec 3) (v : Bool) : Core :=
  if p = 0 then k else k.modBank fun b => { b with p := setBit b.p p.toNat v }

/-- PCC of the current bank. -/
def Core.pcc (k : Core) : Cap := k.bank.pcc

/-- A control-transfer target with bit 0 of its cursor taken as zero (03 R60); a capability that cannot represent the even cursor
becomes invalid (02 R39). -/
def Cap.even (k : Cap) : Cap := if k.cursor.getLsbD 0 then k.withCursor (k.cursor.toNat - 1 : Int) else k

/-- Installs a PCC in the current bank, its cursor even (03 R60). -/
def Core.setPcc (k : Core) (v : Cap) : Core := k.modBank fun b => { b with pcc := v.even }

/-- Whether C15 gives SYS authority (02 R21). -/
def Core.sys (k : Core) : Bool := (k.getC 15).valid && !(k.getC 15).sealed && (k.getC 15).has .sys

/-- CORECFG.DET (02 Table 2.5). -/
def Core.det (k : Core) : Bool := k.corecfg.getLsbD 0

/-- STATUS as read: DET is a copy of CORECFG.DET (02 Table 2.3). -/
def Core.statusRead (k : Core) : Word := setBit k.status 8 k.det

/-- STATUS.TCHK. -/
def Core.tchk (k : Core) : Nat := getField k.status 1 2
/-- STATUS.UNINIT_TRAP. -/
def Core.uninitTrap (k : Core) : Bool := k.status.getLsbD 3
/-- STATUS.IOVE. -/
def Core.iove (k : Core) : Bool := k.status.getLsbD 4
/-- STATUS.DOVE. -/
def Core.dove (k : Core) : Bool := k.status.getLsbD 5

/-- SESSION index word (02 Table 2.6, number 17). -/
def Core.sessionWord (k : Core) : Word := BitVec.ofNat 64 (k.sidx.toNat + k.slot.toNat * 2 ^ 16)

/-- JSEG (02 Table 2.6). -/
def Core.jseg (k : Core) : Word := BitVec.ofNat 64 (k.segno.toNat + (if k.jopen then 2 ^ 63 else 0))

/-- ZONE.ZN. -/
def Core.zn (k : Core) : BitVec 4 := k.zone.extractLsb' 0 4

/-- Lands the outstanding product in MH:ML (04 R106). -/
def Core.landProduct (k : Core) : Core :=
  match k.product with
  | none => k
  | some (h, l) => { k with mh := h, ml := l, product := none }

/-- Lands one floating-point result in its bank with its sticky flags (04 R129, 07 Table 7.3). -/
def Core.landOne (k : Core) (d : FpDue) : Core :=
  let b := k.banks[d.bank]
  let put (g : Vector GReg 16) (r : BitVec 4) (v : Word) : Vector GReg 16 :=
    if r = 0 then g else g.set r.toNat ⟨v, d.tag, none⟩ r.isLt
  let g := put b.g d.reg (d.val.extractLsb' 0 64)
  let g := if d.pair then put g (d.reg + 1) (d.val.extractLsb' 64 64) else g
  { k with banks := k.banks.set d.bank { b with g := g }
           fpctl := k.fpctl ||| (d.sticky.setWidth 64 <<< 8) }

/-- Lands every floating-point result still due, oldest first. -/
def Core.landFp (k : Core) : Core := { k.fpq.foldl Core.landOne k with fpq := [] }

/-! ## Log, severities and outputs -/

/-- The status bit of a severity's AER error set in configuration space: Corrected Internal Error in the correctable status, Uncorrectable
Internal Error in the uncorrectable (17 Table 17.2; the places of both are PCIe's, PRESUMED, log entry 141). -/
def aerStatus (sev : Byte) (config : List (Nat × BitVec 32)) : List (Nat × BitVec 32) :=
  if sev = 1 then Sparse.set 0 config 0x110 (Sparse.get 0 config 0x110 ||| 0x00004000)
  else if sev ≥ 3 then Sparse.set 0 config 0x104 (Sparse.get 0 config 0x104 ||| 0x00400000)
  else config

/-- Appends a record of an event found at a TIMER value; the log keeps the newest 8,192 (17 R425, R426). A corrected, data-loss
or fatal record also sends its AER message, and the last two hold FAULT_N until cold start (17 R421, Table 17.2). -/
def State.logAt (s : State) (time : Word) (cls sev : Byte) (unit code aux : Nat) (addr : Word) : State :=
  let r : LogRec := ⟨s.steward.nextSeq, cls, sev, BitVec.ofNat 16 unit, time, BitVec.ofNat 32 code,
    BitVec.ofNat 32 aux, addr⟩
  let all := s.steward.log ++ [r]
  { s with
    steward := { s.steward with
      log := all.drop (all.length - 8192)
      nextSeq := s.steward.nextSeq + 1
      dataLoss := s.steward.dataLoss || decide (sev ≥ 3) }
    config := aerStatus sev s.config
    out := if sev = 1 ∨ sev ≥ 3 then s.out ++ [.aer sev] else s.out }

/-- Appends a record of an event found now. -/
def State.log (s : State) (cls sev : Byte) (unit code aux : Nat) (addr : Word) : State :=
  s.logAt s.timer cls sev unit code aux addr

/-- Puts something out. -/
def State.emit (s : State) (o : Output) : State := { s with out := s.out ++ [o] }

/-! ## Memory -/

/-- Tag codes of 02 Table 2.7. -/
def Tag.bin : Tag := 0x0
/-- Packed decimal. -/
def Tag.pdec : Tag := 0x1
/-- Text. -/
def Tag.text : Tag := 0x2
/-- binary64. -/
def Tag.f64 : Tag := 0x3
/-- decimal64. -/
def Tag.d64 : Tag := 0x4
/-- decimal128. -/
def Tag.d128 : Tag := 0x5
/-- Capability, low word. -/
def Tag.capl : Tag := 0x6
/-- Capability, high word. -/
def Tag.caph : Tag := 0x7
/-- Instruction memory. -/
def Tag.code : Tag := 0x8
/-- Undefined data. -/
def Tag.poison : Tag := 0xE
/-- Never written. -/
def Tag.uninit : Tag := 0xF

/-- CAPL or CAPH. -/
def isCapTag (t : Tag) : Bool := t == Tag.capl || t == Tag.caph

/-- The form a memory keeps: both tables canonical, and so no entry at what initialisation writes. -/
abbrev Memory.wf (m : Memory) : Prop := Sparse.wf 0 m.data ∧ Sparse.wf Tag.uninit m.tags

/-- A byte of memory. -/
def Memory.byte (m : Memory) (a : Nat) : Byte := Sparse.get 0 m.data a

/-- The tag of the word that holds a byte key. -/
def Memory.tagAt (m : Memory) (a : Nat) : Tag := Sparse.get Tag.uninit m.tags (a / 8)

/-- `n` bytes from a key on. -/
def Memory.bytes (m : Memory) (a n : Nat) : List Byte := (List.range n).map fun i => m.byte (a + i)

/-- Writes bytes, no tag. -/
def Memory.setBytes (m : Memory) (a : Nat) : List Byte → Memory
  | [] => m
  | b :: t => Memory.setBytes { m with data := Sparse.set 0 m.data a b } (a + 1) t

/-- Sets the tag of a word by its word key. -/
def Memory.setTag (m : Memory) (w : Nat) (t : Tag) : Memory :=
  { m with tags := Sparse.set Tag.uninit m.tags w t }

/-- The other word of the same aligned 16 B, both by their word keys. -/
def fellow (w : Nat) : Nat := if w % 2 = 0 then w + 1 else w - 1

/-- The other word of the same aligned 16 B loses a capability tag (02 R33, R34). -/
def Memory.uncapOther (m : Memory) (w : Nat) : Memory :=
  if isCapTag (m.tagAt (8 * fellow w)) then m.setTag (fellow w) Tag.bin else m

/-- Retags word `w` of the `n` words from word `lo` on; its fellow loses a capability tag unless it is one of them (02 R34). -/
def Memory.retagWord (m : Memory) (lo n w : Nat) (t : Tag) : Memory :=
  if lo ≤ fellow w ∧ fellow w < lo + n then m.setTag w t else (m.setTag w t).uncapOther w

/-- Tags one word, of tag `cur` before the write: a whole word takes the writer's tag; a part of a capability word makes it and its fellow
BIN, a part of a POISON word leaves it POISON, any other part takes the writer's tag (02 R33). -/
def Memory.tagWrite (m : Memory) (cur : Tag) (w : Nat) (whole : Bool) (t : Tag) : Memory :=
  if whole then m.setTag w t
  else if isCapTag cur then (m.setTag w Tag.bin).uncapOther w
  else if cur = Tag.poison then m
  else m.setTag w t

/-- Number of words a byte range touches. -/
def wordSpan (a n : Nat) : Nat := if n = 0 then 0 else (a + n - 1) / 8 - a / 8 + 1

/-- Whether a byte range covers a word whole. -/
def coversWord (a n w : Nat) : Bool := decide (a ≤ 8 * w ∧ 8 * w + 8 ≤ a + n)

/-- Performs a write: its bytes, and the tag of every word it touches; a write without bytes only retags, and a word outside it loses
a capability tag that it shared with one of its words (02 R33, R34). -/
def Memory.put (m : Memory) (w : Write) : Memory :=
  let n := w.bytes.length
  let first := w.addr / 8
  if n = 0 then
    (List.range w.tags.length).foldl (fun m i => m.retagWord first w.tags.length (first + i) (w.tags.getD i Tag.bin)) m
  else
    (List.range (wordSpan w.addr n)).foldl
      (fun q i => q.tagWrite (m.tagAt (8 * (first + i))) (first + i) (coversWord w.addr n (first + i)) (w.tags.getD i Tag.bin))
      (m.setBytes w.addr w.bytes)

/-- Key of a bank byte (02 Table 2.15): each bank is 512 KiB. -/
def bankKey (c : CoreId) (off : Nat) : Nat := c.val * 0x80000 + off

/-- Key of steward memory at an address (13 R354). -/
def stewardKey (a : Nat) : Nat := 0x08000000 + a

/-- First address of main memory. -/
def mainBase : Nat := 0x010000000000
/-- First address of the attribute table (11 Table 11.2). -/
def attrBase : Nat := 0x011FFE000000
/-- First address past main memory. -/
def mainTop : Nat := 0x012000000000

/-- Journal ring size of each yard in bytes (11 R286). -/
def State.ringBytes (s : State) : Nat := 2 ^ (s.steward.ringlog + 20)

/-- First address of the journal region (11 Table 11.2). -/
def State.journalBase (s : State) : Nat := attrBase - 2 * s.ringBytes

/-- Where an address lies on the core address map (02 Table 2.15, 11 R287). -/
inductive Region where
  | own
  | window
  | ccs
  | main
  | none
  deriving DecidableEq, Repr

/-- Region of an address; the journal region and the attribute table are not reached by cores (11 R287). -/
def State.region (s : State) (a : Nat) : Region :=
  if a < 0x80000 then .own
  else if 0x01000000 ≤ a ∧ a < 0x01400000 then .window
  else if 0x02000000 ≤ a ∧ a < 0x02010000 then .ccs
  else if mainBase ≤ a ∧ a < s.journalBase then .main
  else .none

/-- Key of an address as a core sees it (02 R48, 10 R256). -/
def State.key (s : State) (c : CoreId) (a : Nat) : Nat :=
  match s.region a with
  | .own => c.val * 0x80000 + a
  | .window => (c.val / 8 * 8) * 0x80000 + (a - 0x01000000)
  | _ => a

/-- Memory as a core sees it: its own buffered stores over what has been performed (02 R52, 08 R226). -/
def State.view (s : State) (c : CoreId) : Memory :=
  (s.core c).sbuf.foldl (fun m e => e.writes.foldl Memory.put m) s.mem

/-! ## Yards -/

/-- The yard that holds an address of main memory (11 R285). -/
def yardOf (a : Nat) : Yard :=
  let o := a - mainBase
  if (o.testBit 8 ^^ o.testBit 14 ^^ o.testBit 20 ^^ o.testBit 26 ^^ o.testBit 32) then .b else .a

/-- 0 for Yard A, 1 for Yard B. -/
def yardNum : Yard → Nat
  | .a => 0
  | .b => 1

/-- Number within its yard of the 256 B line that holds an address (11 R285). -/
def lineNo (a : Nat) : Nat := (a - mainBase) / 512

/-- A yard of the module. -/
def State.yard (s : State) : Yard → YardState
  | .a => s.yardA
  | .b => s.yardB

/-- The module with one yard changed. -/
def State.modYard (s : State) (y : Yard) (f : YardState → YardState) : State :=
  match y with
  | .a => { s with yardA := f s.yardA }
  | .b => { s with yardB := f s.yardB }

/-- Whether a line of a yard is lost (11 R301, R303). -/
def YardState.lost (k : YardState) (n : Nat) : Bool :=
  k.mode == 3 || (k.lostUp && decide (k.rptr ≤ n))

/-- Whether an address of main memory lies in a lost line. -/
def State.lostAt (s : State) (a : Nat) : Bool := (s.yard (yardOf a)).lost (lineNo a)

/-- A byte of main memory as a yard delivers it: zero in a lost line (11 R301). -/
def State.mainByte (s : State) (a : Nat) : Byte := if s.lostAt a then 0 else s.mem.byte a

/-! ## The Aisle -/

/-- Aisle stop of a shed (01 Table 1.1). -/
def shedStop (h : ShedId) : Fin 17 := if h.val < 6 then Fin.ofNat 17 (h.val + 1) else Fin.ofNat 17 (h.val + 4)

/-- Aisle stop of a yard (01 Table 1.1). -/
def yardStop : Yard → Fin 17
  | .a => 7
  | .b => 9

/-- Aisle stop of the Gate (01 Table 1.1). -/
def gateStop : Fin 17 := 0
/-- Aisle stop of both Halyard ports (01 Table 1.1). -/
def halyardStop : Fin 17 := 8
/-- Aisle stop of the steward (01 Table 1.1). -/
def stewardStop : Fin 17 := 16

/-- The ring a flit takes from one stop to another, true for the one on which stop numbers decrease: that of fewer stops, and the
increasing one where both pass the same number (01 R8). -/
def ringOf (i j : Fin 17) : Bool := decide ((i - j).val < (j - i).val)

/-- Whether a flit at stop i on a ring reaches stop j. `(i, false)` is the hop of the increasing ring out of stop i and `(i, true)`
that of the decreasing ring; a stop whose hop has failed puts the flit onto its other ring (17 R416). `fuel` bounds the hops. -/
def flitReaches (failed : List (Fin 17 × Bool)) : Nat → Bool → Fin 17 → Fin 17 → Bool
  | 0, _, i, j => i == j
  | fuel + 1, ring, i, j =>
    let ring := if failed.contains (i, ring) then !ring else ring
    i == j || (!failed.contains (i, ring) && flitReaches failed fuel ring (if ring then i - 1 else i + 1) j)

/-- Whether a flit gets from one stop to another, starting on the ring of R8; each stop is passed at most once on each ring. -/
def State.carries (s : State) (i j : Fin 17) : Bool := flitReaches s.steward.failedHops 34 (ringOf i j) i j

/-- Whether a core is cut off from a yard, to it or back from it (17 Table 17.4). -/
def State.cutOff (s : State) (c : CoreId) (y : Yard) : Bool :=
  let a := shedStop (shedOf c)
  !s.steward.failedHops.isEmpty && !(s.carries a (yardStop y) && s.carries (yardStop y) a)

/-- First byte of a range of main memory that lies in a yard the core is cut off from. -/
def State.firstCutOff (s : State) (c : CoreId) (a n : Nat) : Option Nat :=
  if s.region a ≠ .main ∨ s.steward.failedHops.isEmpty then none
  else (List.range n).findSome? fun i => if s.cutOff c (yardOf (a + i)) then some (a + i) else none

/-! ## Pages, REF and CHG -/

/-- Page number of a main-memory address. -/
def pageOf (a : Nat) : Nat := (a - mainBase) / 4096

/-- Address of a page's attribute byte (11 R307). -/
def attrAddr (page : Nat) : Nat := attrBase + page

/-- The attribute byte of a page, with the set requests on their way counted in (11 R309). -/
def State.attr (s : State) (page : Nat) : Byte :=
  let b := s.mainByte (attrAddr page)
  let b := if (page, false) ∈ s.refChg then b ||| 0x02 else b
  if (page, true) ∈ s.refChg then b ||| 0x01 else b

/-- Page key field. -/
def attrKey (b : Byte) : BitVec 4 := b.extractLsb' 2 4
/-- Read lock. -/
def attrRlk (b : Byte) : Bool := b.getLsbD 6
/-- Journaled page. -/
def attrJrn (b : Byte) : Bool := b.getLsbD 7

/-- Pages of main memory that a byte range touches, ascending. -/
def pagesOf (a n : Nat) : List Nat :=
  if n = 0 then [] else (List.range (pageOf (a + n - 1) - pageOf a + 1)).map (pageOf a + ·)

/-! ## L2 caches and directories -/

/-- Number of the 64 B line that holds an address of main memory. -/
def lineId (a : Nat) : Nat := (a - mainBase) / 64

/-- Address of a 64 B line. -/
def lineAddr (line : Nat) : Nat := mainBase + 64 * line

/-- The module with one shed changed. -/
def State.modShed (s : State) (h : ShedId) (f : Shed → Shed) : State := { s with sheds := s.sheds.set h (f s.sheds[h]) }

/-- State of a line in a shed's L2; none stands for I (10 R280). -/
def Shed.l2State (h : Shed) (line : Nat) : Option L2State := (h.l2.find? (·.1 == line)).map (·.2)

/-- A shed whose L2 no longer holds a line. -/
def Shed.dropL2 (h : Shed) (line : Nat) : Shed := { h with l2 := h.l2.filter (·.1 != line) }

/-- A shed whose L2 holds a line in a state. -/
def Shed.putL2 (h : Shed) (line : Nat) (x : L2State) : Shed := { h with l2 := (line, x) :: (h.dropL2 line).l2 }

/-- Directory record of a line; none stands for I (10 R280). -/
def State.dirOf (s : State) (line : Nat) : Option Dir :=
  ((s.yard (yardOf (lineAddr line))).dir.find? (·.1 == line)).map (·.2)

/-- Every L2 lets go of a line but that of `keep`, and with it the L1 D-caches of its cores (10 Tables 10.6, 10.7). -/
def State.invalidateOthers (s : State) (keep : Option ShedId) (line : Nat) : State :=
  { s with
    sheds := s.sheds.mapFinIdx fun i h hi => if keep = some ⟨i, hi⟩ then h else h.dropL2 line
    l1d := s.l1d.filter fun e => e.2 != line || keep == some (shedOf e.1) }

/-- Reservations on a line end with its eviction from the L2s of some sheds (04 R115). -/
def State.endReservations (s : State) (which : ShedId → Bool) (line : Nat) : State :=
  { s with cores := s.cores.mapFinIdx fun i k h =>
      if which (shedOf ⟨i, h⟩) && k.resv.map lineId == some line then { k with resv := none } else k }

/-- Set of a line in the sparse directory of its yard: 16,384 sets of 16 ways (10 R280; which bits of the line number choose the set the
spec does not say: DESIGN CHOICE, log entry 157). -/
def dirSet (line : Nat) : Nat := (lineNo (lineAddr line) * 4 + lineAddr line % 256 / 64) % 16384

/-- The entry that a new record of a line replaces where its set is full: the one recorded longest ago (DESIGN CHOICE, log entry 157). -/
def YardState.dirVictim (k : YardState) (line : Nat) : Option Nat :=
  let same := k.dir.filter fun e => dirSet e.1 == dirSet line
  if same.any (·.1 == line) || decide (same.length < 16) then none else same.getLast?.map (·.1)

/-- A yard without the directory record of a line. -/
def YardState.dropDir (k : YardState) (line : Nat) : YardState := { k with dir := k.dir.filter (·.1 != line) }

/-- A directory entry is replaced: its line is recalled from every shed, which counts as an eviction (10 R280, 04 R115). -/
def State.replaceDir (s : State) (line : Nat) : State :=
  ((s.invalidateOthers none line).modYard (yardOf (lineAddr line)) fun k => k.dropDir line).endReservations (fun _ => true) line

/-- Sets or removes the directory record of a line; a new record may have to replace one of its set (10 R280). -/
def State.setDir (s : State) (line : Nat) (d : Option Dir) : State :=
  let y := yardOf (lineAddr line)
  match d with
  | none => s.modYard y fun k => k.dropDir line
  | some d =>
    let s := match (s.yard y).dirVictim line with
      | some v => s.replaceDir v
      | none => s
    s.modYard y fun k => { k with dir := (line, d) :: (k.dropDir line).dir }

/-- Ownership of a line granted to a shed (10 Table 10.7). -/
def State.ownLine (s : State) (h : ShedId) (line : Nat) : State :=
  ((s.invalidateOthers (some h) line).modShed h fun x => x.putL2 line .m).setDir line (some (.owned h))

/-- A line recalled from every L2 (10 Table 10.7). -/
def State.recallLine (s : State) (line : Nat) : State := (s.invalidateOthers none line).setDir line none

/-- Whether a core uses its L1 D-cache: CORECFG.L1DE without DET (02 Table 2.5, R24). -/
def Core.l1dOn (k : Core) : Bool := k.corecfg.getLsbD 2 && !k.det
/-- Whether a core uses its L1 I-cache: CORECFG.L1IE without DET (02 Table 2.5, R24). -/
def Core.l1iOn (k : Core) : Bool := k.corecfg.getLsbD 1 && !k.det

/-- An entry made the newest of a core's L1 of 128 sets and 4 ways; the least recently used entry of its set gives way
(10 Table 10.6). -/
def lruFill {α : Type} (line : α → CoreId × Nat) (x : α) (cache : List α) : List α :=
  let same (e : α) : Bool := (line e).1 == (line x).1 && (line e).2 % 128 == (line x).2 % 128
  let rest := cache.filter fun e => line e != line x
  let old := (rest.filter same).drop 3
  x :: rest.filter fun e => !(old.map line).contains (line e)

/-- A core reads a line of main memory that its shed's L2 holds: its L1 D-cache takes the line (10 Table 10.6). -/
def State.fillL1d (s : State) (c : CoreId) (line : Nat) : State :=
  if (s.core c).l1dOn && (s.sheds[shedOf c].l2State line).isSome then { s with l1d := lruFill id (c, line) s.l1d } else s

/-- A core's L1 caches and block buffer emptied. -/
def State.dropL1 (s : State) (c : CoreId) : State :=
  { s.modCore c fun k => { k with block := none } with l1d := s.l1d.filter (·.1 != c), l1i := s.l1i.filter (·.1 != c) }

/-- 64 B lines of main memory that a byte range touches, ascending. -/
def lineIdsOf (a n : Nat) : List Nat :=
  if n = 0 then [] else (List.range (lineId (a + n - 1) - lineId a + 1)).map (lineId a + ·)

/-- The caches after a core has read a byte range: the lines go to its L1 D-cache, or in deterministic mode are recalled from every
L2 (10 Tables 10.6, 10.7; 08 R230). -/
def State.readLines (s : State) (c : CoreId) (a n : Nat) : State :=
  if s.region a = .main then
    (lineIdsOf a n).foldl (fun s l => if (s.core c).det then s.recallLine l else s.fillL1d c l) s
  else s

/-! ## Key caches -/

/-- The attribute byte that a shed's key cache holds of a page (11 R308). -/
def Shed.keyEntry (h : Shed) (page : Nat) : Option Byte := (h.keyCache.find? (·.1 == page)).map (·.2)

/-- The attribute byte of a page as a core's checks see it: its shed's key-cache entry, which a miss fills from the yard's copy of the
table (11 R308). -/
def State.pageByte (s : State) (c : CoreId) (page : Nat) : Byte := (s.sheds[shedOf c].keyEntry page).getD (s.attr page)

/-- An attribute byte made the newest entry of a key cache of 256 sets of 8 ways; the least recently used entry of its set gives way
(11 R308). -/
def keyFill (cache : List (Nat × Byte)) (page : Nat) (b : Byte) : List (Nat × Byte) :=
  let rest := cache.filter (·.1 != page)
  let gone := ((rest.filter (·.1 % 256 == page % 256)).drop 7).map (·.1)
  (page, b) :: rest.filter fun e => !gone.contains e.1

/-- An allowed access to a page: where the key-cache entry has REF clear, or CHG for a write, the bit is set in the entry and asked for
in the table (11 R309). -/
def State.touchPage (s : State) (c : CoreId) (write : Bool) (page : Nat) : State :=
  let b := s.pageByte c page
  let set := b ||| 0x02 ||| (if write then 0x01 else 0)
  let s := s.modShed (shedOf c) fun k => { k with keyCache := keyFill k.keyCache page set }
  let s := if b.getLsbD 1 then s else { s with refChg := s.refChg ++ [(page, false)] }
  if write && !b.getLsbD 0 then { s with refChg := s.refChg ++ [(page, true)] } else s

/-- An allowed access of a core to a byte range; only main memory has pages. -/
def State.touch (s : State) (c : CoreId) (write : Bool) (a n : Nat) : State :=
  if s.region a = .main then (pagesOf a n).foldl (fun s p => s.touchPage c write p) s else s

/-! ## Performing stores -/

/-- Splits a write at the 64 B line boundaries it crosses; `fuel` bounds the lines. -/
def splitLines : Nat → Write → List Write
  | 0, w => [w]
  | fuel + 1, w =>
    let room := 64 - w.addr % 64
    if w.len ≤ room then [w]
    else
      let words := (w.addr + room) / 8 - w.addr / 8
      ⟨w.addr, w.bytes.take room, w.tags.take words⟩ ::
        splitLines fuel ⟨w.addr + room, w.bytes.drop room, w.tags.drop words⟩

/-- Directory actions of a write being performed: a core's own store leaves the line in state M in its L2 and in no L1 D-cache but
its own; a yard's own write, and a store in deterministic mode, recall it (10 R279, Table 10.7). -/
def State.placeLine (s : State) (by_ : Option CoreId) (line : Nat) : State :=
  match by_ with
  | some c =>
    if (s.core c).det then s.recallLine line
    else
      let s := s.ownLine (shedOf c) line
      { s with l1d := s.l1d.filter fun e => e.2 != line || e.1 == c }
  | none => s.recallLine line

/-- WRITE_DISCARDED: a write that found its line lost (11 R301, 17 Table 17.6); 0xFF stands for a writer that is no core. -/
def State.discard (s : State) (by_ : Option CoreId) (a : Nat) : State :=
  s.log 0x12 3 (yardNum (yardOf a)) (lineNo a) ((by_.map Fin.val).getD 0xFF) (BitVec.ofNat 64 (a / 256 * 256))

/-- A yard writes the attribute byte of a page (11 R301, R309). -/
def State.putAttr (s : State) (page : Nat) (b : Byte) : State :=
  let a := attrAddr page
  if s.lostAt a then s.discard none a else { s with mem := s.mem.setBytes a [b] }

/-- One write within a 64 B line of main memory is performed: other observers' reservations on the granule end (04 R115).
A write to a lost line is discarded and reported (11 R301, 17 Table 17.6). -/
def State.performLine (s : State) (by_ : Option CoreId) (w : Write) : State :=
  if s.lostAt w.addr then
    s.discard by_ w.addr
  else
    let t := s.placeLine by_ (lineId w.addr)
    { t with
      mem := s.mem.put w
      cores := t.cores.mapFinIdx fun i k h =>
        if by_ = some ⟨i, h⟩ then k
        else if k.resv.map (· / 64) = some (w.addr / 64) then { k with resv := none }
        else k }

/-- A write to main memory is performed, line by line. -/
def State.perform (s : State) (by_ : Option CoreId) (w : Write) : State :=
  (splitLines (w.len / 64 + 1) w).foldl (fun s w => s.performLine by_ w) s

/-- Performs every write of a store-buffer entry, oldest first. -/
def State.performEntry (s : State) (c : CoreId) (e : SbEntry) : State :=
  e.writes.foldl (fun s w => s.perform (some c) w) s

/-- Drains the oldest store-buffer entry (08 R226). -/
def State.drainOne (s : State) (c : CoreId) : State :=
  match (s.core c).sbuf with
  | [] => s
  | e :: t => (s.modCore c fun k => { k with sbuf := t }).performEntry c e

/-- Drains the whole store buffer in order (02 R54, 08 R227). -/
def State.drainAll (s : State) (c : CoreId) : State :=
  (s.core c).sbuf.foldl (fun s e => s.performEntry c e) (s.modCore c fun k => { k with sbuf := [] })

/-- Puts a write of one line into the store buffer: merged into that line's entry, else in a new entry once the oldest has
drained where all eight are taken (08 R226). -/
def State.buffer (s : State) (c : CoreId) (w : Write) : State :=
  let line := w.addr / 64
  if (s.core c).sbuf.any (·.line == line) then
    s.modCore c fun k => { k with
      sbuf := k.sbuf.map fun e => if e.line = line then { e with writes := e.writes ++ [w] } else e }
  else
    let s := if (s.core c).sbuf.length < 8 then s else s.drainOne c
    s.modCore c fun k => { k with sbuf := k.sbuf ++ [⟨line, [w]⟩] }

/-- Tags of a line that a core has fetched, after its own write to a byte range. -/
def State.seenTags (s : State) (c : CoreId) (a n line : Nat) (tags : List Tag) : List Tag :=
  tags.mapIdx fun i t =>
    let w := lineAddr line / 8 + i
    if a / 8 ≤ w ∧ w < a / 8 + wordSpan a n then (if s.lostAt (8 * w) then Tag.poison else (s.view c).tagAt (8 * w)) else t

/-- A core's own stores are seen by its later fetches, but for those of 03 R93, and invalidate no line of its L1 I-cache (10 R279): the
words stored to are seen in the lines that it and its block buffer hold. The spec does not say how they come to be seen (DESIGN
CHOICE, log entry 120). -/
def State.seeStore (s : State) (c : CoreId) (a n : Nat) : State :=
  let ls := lineIdsOf a n
  let see (line : Nat) (tags : List Tag) : List Tag := if ls.contains line then s.seenTags c a n line tags else tags
  { s.modCore c fun k => { k with block := k.block.map fun b => (b.1, see b.1 b.2) } with
    l1i := s.l1i.map fun e => if e.1 = c then (e.1, e.2.1, see e.2.1 e.2.2) else e }

/-- The bank owner's window into its own bank and the windows of its shed are written in place; main memory through the
store buffer, or at once in deterministic mode (08 R226, R230). The address is the core's; core control space is not
written here. -/
def State.store (s : State) (c : CoreId) (w : Write) : State :=
  match s.region w.addr with
  | .main =>
    let s := s.touch c true w.addr w.len
    let s := if (s.core c).det then (s.drainAll c).perform (some c) w
      else (splitLines (w.len / 64 + 1) w).foldl (fun s w => s.buffer c w) s
    s.seeStore c w.addr w.len
  | .own | .window => { s with mem := s.mem.put { w with addr := s.key c w.addr } }
  | _ => s

/-! ## Core control space -/

/-- Whether a core has an untaken descriptor (07 Table 7.7). -/
def State.dispatchPending (s : State) (c : CoreId) : Bool :=
  s.requests.any fun r => match r.phase with
    | .offered o _ => o.val == c.val
    | _ => false

/-- TIMER pending: the level TIMER ≥ TCMP while IEN.TMR enables it (07 Table 7.7, log entry 12). -/
def State.timerPending (s : State) (c : CoreId) : Bool :=
  decide ((s.core c).tcmp ≤ s.timer) && (s.core c).ien.getLsbD 0

/-- IPEND (07 Table 7.8). -/
def State.ipend (s : State) (c : CoreId) : Word :=
  let k := s.core c
  BitVec.ofNat 64 ((if s.timerPending c then 1 else 0) + (if s.dispatchPending c then 2 else 0)
    + (if k.peers = [] then 0 else 4) + (if k.dbgHalt then 8 else 0) + (if k.steward.isSome then 16 else 0))

/-- Tags of G1–G15 packed as GTAG (07 Table 7.6). -/
def Bank.gtag (b : Bank) : Word :=
  BitVec.ofNat 64 ((List.range 15).foldl (fun acc i =>
    acc + (b.g[i + 1]?.map (·.tag.toNat)).getD 0 * 2 ^ (4 * (i + 1))) 0)

/-- Validity of C1–C15 and of the saved capabilities (07 Table 7.6). -/
def Bank.cvalid (b : Bank) (pcc tpcc : Bool) : Word :=
  BitVec.ofNat 64 ((List.range 15).foldl (fun acc i =>
    acc + (if (b.c[i + 1]?.map (·.valid)).getD false then 2 ^ (i + 1) else 0)) 0
    + (if pcc then 2 ^ 16 else 0) + (if tpcc then 2 ^ 17 else 0))

/-- A word of the bank window of bank b at an offset below 0x200 (07 Table 7.6). -/
def Core.windowRead (k : Core) (b : Fin 4) (off : Nat) : Word :=
  let bk := k.banks[b]
  let sh := k.shadows[b]
  if off < 0x80 then (if off / 8 = 0 then 0 else (bk.g[off / 8]?.map (·.val)).getD 0)
  else if off ≥ 0x100 then
    let n := (off - 0x100) / 16
    if n = 0 then 0
    else (bk.c[n]?.map fun c => if off % 16 = 0 then c.cursor else c.high).getD 0
  else if off = 0x80 then bk.gtag
  else if off = 0x88 then (bk.p &&& 0xFE).setWidth 64
  else if off = 0x90 then bk.cvalid (b ≠ 0 && sh.pcc.valid) (b ≠ 0 && sh.tpcc.valid)
  else if b = 0 then 0
  else match off with
    | 0xA0 => sh.pcc.cursor
    | 0xA8 => sh.pcc.high
    | 0xB0 => sh.tpcc.cursor
    | 0xB8 => sh.tpcc.high
    | 0xC0 => sh.status
    | 0xC8 => (sh.pred &&& 0xFE).setWidth 64
    | 0xD0 => sh.resume
    | 0xD8 => sh.cause
    | 0xE0 => sh.faddr
    | 0xE8 => sh.mh
    | 0xF0 => sh.ml
    | 0xF8 => sh.skip.setWidth 64
    | _ => 0

/-- A 64-bit read of core control space at an offset (10 Tables 10.8 and 10.9, 07 Table 7.8); offsets not listed read
zero. -/
def State.ccsRead (s : State) (c : CoreId) (off : Nat) : Word :=
  let k := s.core c
  if h : off < 0x800 then k.windowRead ⟨off / 0x200, by omega⟩ (off % 0x200)
  else match off with
    | 0x800 => s.ipend c
    | 0x808 => k.ien.setWidth 64
    | 0x810 => BitVec.ofNat 64 k.peers.length
    | 0x900 => (k.dbgctl &&& 0x1F).setWidth 64
    | 0x908 => k.iam
    | 0x910 => k.dam
    | 0x918 => k.damask
    | 0xA00 => BitVec.ofNat 64 (k.corr.toNat + k.uncorr.toNat * 2 ^ 16 + k.spareMap.length * 2 ^ 32)
    | 0xA08 => match s.sheds[shedOf c].march with
      | some m => if m.core = c then BitVec.ofNat 64 (1 + m.stripe * 2 + m.phase * 2 ^ 8) else 0
      | none => 0
    | 0xA10 => BitVec.ofNat 64 (c.val % 8 + c.val / 8 * 2 ^ 3 + c.val * 2 ^ 7)
    | _ => 0

/-- A GTAG code 0x6–0xD is stored as BIN (07 Table 7.6). -/
def gtagCode (t : Tag) : Tag := if 6 ≤ t.toNat ∧ t.toNat ≤ 0xD then Tag.bin else t

/-- A write to the bank window of bank b (07 Table 7.6): G registers and tags of a bank below the current depth, shadow
slots of an interrupted context; every other write is ignored. -/
def Core.windowWrite (k : Core) (b : Fin 4) (off : Nat) (v : Word) : Core :=
  let bk := k.banks[b]
  let sh := k.shadows[b]
  let putSh (x : Shadow) : Core := { k with shadows := k.shadows.set b x }
  if off < 0x80 ∧ b < k.depth then
    if h : 1 ≤ off / 8 ∧ off / 8 < 16 then
      { k with banks := k.banks.set b { bk with
          g := bk.g.set (off / 8) { bk.g[off / 8] with val := v, mark := none } } }
    else k
  else if off = 0x80 ∧ b < k.depth then
    { k with banks := k.banks.set b { bk with
        g := bk.g.mapFinIdx fun i r _ =>
          if i = 0 then r else { r with tag := gtagCode (BitVec.ofNat 4 (getField v (4 * i) 4)), mark := none } } }
  else if b = 0 ∨ ¬ b ≤ k.depth then k
  else match off with
    | 0xA0 => putSh { sh with pcc := sh.pcc.withCursor v.toNat }
    | 0xB0 => putSh { sh with tpcc := sh.tpcc.withCursor v.toNat }
    | 0xC0 => putSh { sh with status := (sh.status &&& 0x140) ||| (v &&& 0x2BF) }
    | 0xC8 => putSh { sh with pred := v.setWidth 8 &&& 0xFE }
    | 0xD0 => putSh { sh with resume := v }
    | 0xD8 => putSh { sh with cause := v &&& 0xFFFFFF }
    | 0xE0 => putSh { sh with faddr := v }
    | 0xE8 => putSh { sh with mh := v }
    | 0xF0 => putSh { sh with ml := v }
    | 0xF8 => putSh { sh with skip := v.setWidth 2 }
    | _ => k

/-- A 64-bit write of core control space (10 Tables 10.8 and 10.9). -/
def Core.ccsWrite (k : Core) (off : Nat) (v : Word) : Core :=
  if h : off < 0x800 then k.windowWrite ⟨off / 0x200, by omega⟩ (off % 0x200) v
  else match off with
    | 0x808 => { k with ien := v.setWidth 4 }
    | 0x900 => { k with dbgctl := (k.dbgctl &&& 1) ||| (v.setWidth 6 &&& 0x1E)
                        dbgHalt := k.dbgHalt || v.getLsbD 5 }
    | 0x908 => { k with iam := v &&& ~~~1#64 }
    | 0x910 => { k with dam := v }
    | 0x918 => { k with damask := v }
    | _ => k

/-! ## Taking an exception -/

/-- CAUSE with VEC, CODE and OPND (02 Table 2.6, 07 R188). -/
def causeWord (e : ExcOperand) : Word :=
  BitVec.ofNat 64 (e.code.toNat + e.vec.val * 2 ^ 16 + e.opnd.toNat * 2 ^ 22)

/-- The target PCC saved with a delay-slot instruction of `len` bytes: the transfer's target, or the instruction after the
slot when the transfer is not taken (07 R199). -/
def Core.slotTarget (k : Core) (d : Delay) (len : Nat) : Cap :=
  d.target.getD (k.pcc.withCursor (k.pcc.cursor.toNat + len))

/-- Entry at depth d < 3 (07 R195, Table 7.4): results still due land; the shadow slots of bank d + 1 take the interrupted
context; CAUSE and FADDR take the new values; bank d + 1 becomes current under HPCC and HDCC. `slot` is the length of the
delay-slot instruction that faults or is abandoned, 0 when none is. -/
def Core.enterAt (k : Core) (d' : Fin 4) (e : ExcOperand) (slot : Nat) : Core :=
  let k := k.landProduct.landFp
  let bds := k.delay.isSome && slot != 0
  let old := k.shadows[d']
  let tp := match k.delay with
    | some d => if slot = 0 then old.tpcc else k.slotTarget d slot
    | none => old.tpcc
  let sh : Shadow := {
    pcc := k.pcc, tpcc := tp, status := setBit k.statusRead 6 bds, pred := k.bank.p, resume := k.resume
    cause := k.cause, faddr := k.faddr, mh := k.mh, ml := k.ml, skip := 0 }
  let nb := k.banks[d']
  { k with
    shadows := k.shadows.set d' sh
    banks := k.banks.set d' { nb with
      pcc := k.hpcc.withCursor (e.vec.val * 0x20 : Nat)
      c := nb.c.set 15 k.hdcc }
    cause := causeWord e
    faddr := e.faddr
    resume := 0
    status := setBit (setBit k.status 0 false) 6 false
    depth := d'
    resv := none
    delay := none
    wait := none
    held := none
    engine := none
    grace := false
    midPair := false }

/-- A detected exception: entry to its vector (07 R195), or at FDEPTH = 3 the stop of the core (07 R209). -/
def Core.takeExc (k : Core) (e : ExcOperand) (slot : Nat) : Core :=
  if h : k.depth.val < 3 then k.enterAt ⟨k.depth.val + 1, by omega⟩ e slot
  else { k with run := .fatal e 1 }

end Sys2Proof.Machine
end

