-- ==== Sys2Proof/Machine/Flags.lean ====
section
/-! DEFINITION. FLAGS, and every flag computation of the binary instructions (04 R98, R99, R101, R102, R463). -/

namespace Sys2Proof.Machine

open Sys2Proof

/-- A result with the carry and overflow of R99; `none` leaves the flag as it is. -/
structure Flagged where
  r : Word
  v : Option Bool
  c : Option Bool
  deriving DecidableEq, Repr

/-- FLAGS.C. -/
def Core.flagC (k : Core) : Bool := k.flags.getLsbD 3

/-- Whether an exact signed value lies outside 64 bits (04 R99). -/
def outside (x : Int) : Bool := decide (x < -2 ^ 63 ∨ 2 ^ 63 ≤ x)

/-- Addition with carry in (04 R99). -/
def addFlags (x y : Word) (cin : Bool) : Flagged :=
  let ci := if cin then 1 else 0
  let e := x.toNat + y.toNat + ci
  ⟨BitVec.ofNat 64 e, some (outside (sval x + sval y + ci)), some (decide (2 ^ 64 ≤ e))⟩

/-- Subtraction with borrow in (04 R99). -/
def subFlags (x y : Word) (cin : Bool) : Flagged :=
  let ci : Int := if cin then 1 else 0
  let e : Int := (x.toNat : Int) - y.toNat - ci
  ⟨word e, some (outside (sval x - sval y - ci)), some (decide (e < 0))⟩

/-- A logical result: V and C unchanged (04 Table 4.1). -/
def logicFlags (r : Word) : Flagged := ⟨r, none, none⟩

/-- `SHL` (04 R101). -/
def shlFlags (x y : Word) : Flagged :=
  let n := y.toNat
  if n = 0 then ⟨x, none, none⟩
  else if n ≤ 63 then ⟨x <<< n, none, some (x.getLsbD (64 - n))⟩
  else ⟨0, none, some (n == 64 && x.getLsbD 0)⟩

/-- `SHRL` (04 R101). -/
def shrlFlags (x y : Word) : Flagged :=
  let n := y.toNat
  if n = 0 then ⟨x, none, none⟩
  else if n ≤ 63 then ⟨x >>> n, none, some (x.getLsbD (n - 1))⟩
  else ⟨0, none, some (n == 64 && x.getLsbD 63)⟩

/-- `SHRA` (04 R101). -/
def shraFlags (x y : Word) : Flagged :=
  let n := y.toNat
  if n = 0 then ⟨x, none, none⟩
  else if n ≤ 63 then ⟨x.sshiftRight n, none, some (x.getLsbD (n - 1))⟩
  else ⟨if x.getLsbD 63 then 0xFFFFFFFFFFFFFFFF else 0, none, some (n == 64 && x.getLsbD 63)⟩

/-- `ROL` (04 R102). -/
def rolFlags (x y : Word) : Flagged :=
  let n := y.toNat % 64
  let r := x.rotateLeft n
  ⟨r, none, if n = 0 then none else some (r.getLsbD 0)⟩

/-- `ROR` (04 R102). -/
def rorFlags (x y : Word) : Flagged :=
  let n := y.toNat % 64
  let r := x.rotateRight n
  ⟨r, none, if n = 0 then none else some (r.getLsbD 63)⟩

/-- Leading zero bits of a word, 0 to 64. -/
def leadingZeros (x : Word) : Nat := if x = 0 then 64 else 63 - Nat.log2 x.toNat

/-- One bits of a word. -/
def oneBits (x : Word) : Nat := ((List.range 64).filter fun i => x.getLsbD i).length

/-- FLAGS after a result: Z and N from it, V and C where they are given (04 R98). -/
def setFlags (f : Word) (q : Flagged) : Word :=
  let f := setBit f 0 (q.r == 0)
  let f := setBit f 1 (q.r.getLsbD 63)
  let f := match q.v with
    | some b => setBit f 2 b
    | none => f
  match q.c with
  | some b => setBit f 3 b
  | none => f

/-- FLAGS.DCC. -/
def setDcc (f : Word) (d : Nat) : Word := setField f 4 2 d

/-- A condition of `PFLG` (04 Table 4.12). -/
def flagCond (f : Word) (cond : Nat) : Bool :=
  let z := f.getLsbD 0
  let n := f.getLsbD 1
  let v := f.getLsbD 2
  let c := f.getLsbD 3
  let d := getField f 4 2
  match cond with
  | 0x0 => z
  | 0x1 => !z
  | 0x2 => n != v
  | 0x3 => n == v
  | 0x4 => z || n != v
  | 0x5 => !z && n == v
  | 0x6 => c
  | 0x7 => !c
  | 0x8 => c || z
  | 0x9 => !c && !z
  | 0xA => n
  | 0xB => v
  | 0xC => d == 0
  | 0xD => d == 1
  | 0xE => d == 2
  | _ => d == 3

/-- A comparison of `PCMP` (04 Table 4.11) or of its S16 form (03 Table 3.3), on exact integers. -/
def compareCond (cond : Nat) (x y : Int) : Bool :=
  match cond with
  | 0 => decide (x = y)
  | 1 => decide (x ≠ y)
  | 2 => decide (x < y)
  | 3 => decide (y ≤ x)
  | 4 => decide (x ≤ y)
  | _ => decide (y < x)

end Sys2Proof.Machine
end

