-- ==== Sys2Proof/Machine/Microword.lean ====
section
/-! DEFINITION. Microwords and the control store of a core: parity and form of a word, the word at which the engine stands, and
whether it fails, raises or commits (09 R237–R247). -/

namespace Sys2Proof.Machine

open Sys2Proof

/-! ## Microwords -/

/-- Opcodes of micro-coded instructions (09 Table 9.1). -/
def microCoded (opc : Nat) : Bool :=
  inRange 0x20 0x21 opc || inRange 0x100 0x10E opc || inRange 0x180 0x18C opc
    || [0x203, 0x204, 0x213, 0x214, 0x223, 0x224].contains opc
    || (inRange 0x280 0x29A opc && !inRange 0x282 0x286 opc && opc != 0x298)
    || inRange 0x2E0 0x2E3 opc || inRange 0x2E8 0x2E9 opc || opc == 0x2F0

/-- Number of one bits. -/
def popCount (n v : Nat) : Nat := (List.range n).foldl (fun t i => if v.testBit i then t + 1 else t) 0

/-- The parity bits that the loader computes for a microword (09 R239). -/
def parityOf (word : BitVec 128) : BitVec 8 :=
  BitVec.ofNat 8 ((List.range 8).foldl (fun t i =>
    if popCount 16 (getField word (16 * i) 16) % 2 = 1 then t else t + 2 ^ i) 0)

/-- A word of a control store: the fields of a microword below its parity. -/
def withParity (word : BitVec 128) : BitVec 136 := parityOf word ++ word

/-- Parity groups of a microword that fail (09 R239). -/
def parityGroups (word : BitVec 128) (par : BitVec 8) : BitVec 8 := parityOf word ^^^ par

/-- SEQ of a microword (09 Table 9.3). -/
def seqCode (word : BitVec 128) : Nat := getField word 112 3
/-- WAIT of a microword (09 Table 9.4). -/
def waitCode (word : BitVec 128) : Nat := getField word 100 6
/-- LIT of a microword. -/
def litField (word : BitVec 128) : Nat := getField word 16 8
/-- COMMIT of a microword: none, progress or final (09 R243, R244). -/
def commitCode (word : BitVec 128) : Nat := getField word 30 2
/-- RSM of a microword (09 R243). -/
def rsmField (word : BitVec 128) : BitVec 6 := word.extractLsb' 24 6
/-- Whether a microword raises the exception of the fault table's entry LIT (09 R245). -/
def raises (word : BitVec 128) : Bool := getField word 32 4 == 0xE

/-- A malformed microword, apart from the stack conditions (09 R240, Tables 9.3 to 9.5, R243). -/
def malformedWord (word : BitVec 128) : Bool :=
  let commit := getField word 30 2
  let flg := getField word 32 4
  getField word 0 16 != 0 || commit == 3 || (seqCode word == 7 && commit != 2)
    || decide (0xD ≤ waitCode word) || decide (0xB ≤ getField word 40 4)
    || (decide (8 ≤ flg) && flg != 0xE) || getField word 28 2 == 3 || decide (4 ≤ getField word 24 4)

/-- A malformed microword with the return stack at a depth (09 R240). -/
def malformedAt (word : BitVec 128) (depth : Nat) : Bool :=
  malformedWord word || (seqCode word == 4 && depth == 4) || (seqCode word == 5 && depth == 0)

/-- Wait codes at which an instruction is no abandonment point (09 Table 9.4). -/
def holdsRecognition (code : Nat) : Bool := code == 0x02 || code == 0x0C

/-- RESUME as RSM composes it at a progress commit (09 R243, 06 Table 6.8): DONE unchanged, plus the unit's length, or from
micro-temporary 0xE; USTATE zero, the direction of `SMOVA`, the replacement flag of `SXL1`, or the edit state. -/
def composeResume (rsm : BitVec 6) (old : Word) (unit temp state : Nat) : Word :=
  let d := match getField rsm 4 2 with
    | 0 => getField old 0 48
    | 1 => getField old 0 48 + unit
    | _ => temp
  let u := match getField rsm 0 4 with
    | 0 => 0
    | 1 => state % 2
    | 2 => state % 2
    | _ => state
  BitVec.ofNat 64 (d % 2 ^ 48 + u % 2 ^ 16 * 2 ^ 48)

/-! ## The control store of a core -/

/-- A word of a core's control store; a store not loaded holds zeros, which fail every parity group (09 R239). -/
def Core.csWord (k : Core) (a : BitVec 13) : BitVec 136 :=
  match k.cs with
  | none => 0
  | some ws => ((ws.find? (·.1 == a.toNat)).map (·.2)).getD (withParity (Config.microcode a))

/-- A word of a core's control store replaced. -/
def Core.putCs (k : Core) (a : BitVec 13) (v : BitVec 136) : Core :=
  { k with cs := k.cs.map fun ws => Sparse.insert (Sparse.erase ws a.toNat) a.toNat v }

/-- Bits of a core's control store that flip (09 R247, R248). -/
def Core.flipCs (k : Core) (flips : List (BitVec 13 × BitVec 136)) : Core :=
  flips.foldl (fun k f => k.putCs f.1 (k.csWord f.1 ^^^ f.2)) k

/-- Parity groups of a word of a control store that fail. -/
def Core.wordGroups (k : Core) (a : BitVec 13) : BitVec 8 := parityGroups ((k.csWord a).setWidth 128) ((k.csWord a).extractLsb' 128 8)

/-- Whether a word of a control store fails parity or form when it is read, with the return stack at a depth (09 R247). A word that stands
as the verified image has it does neither (09 R240). -/
def Core.wordFails (k : Core) (a : BitVec 13) (depth : Nat) : Bool :=
  match k.cs with
  | none => true
  | some ws =>
    match ws.find? (·.1 == a.toNat) with
    | none => false
    | some e => parityGroups (e.2.setWidth 128) (e.2.extractLsb' 128 8) != 0 || malformedAt (e.2.setWidth 128) depth

/-! ## The word at which the engine stands -/

/-- The engine as it begins a routine: at the word addressed by the instruction's opcode (09 R238). -/
def Engine.start (opc : Nat) : Engine := ⟨BitVec.ofNat 13 opc, [], 0, [], [], []⟩

/-- Fields of the word at which an engine stands. -/
def Core.engineWord (k : Core) (e : Engine) : BitVec 128 := (k.csWord e.addr).setWidth 128

/-- Parity groups of that word that fail. -/
def Core.engineGroups (k : Core) (e : Engine) : BitVec 8 := k.wordGroups e.addr

/-- Whether that word fails parity or form, and so is not executed (09 R247). -/
def Core.engineFails (k : Core) (e : Engine) : Bool := k.wordFails e.addr e.stack.length

/-- The exception that a core's engine stands ready to raise: vector and code of the fault table's entry LIT (09 R245). -/
def Core.engineRaises (k : Core) : Option (BitVec 6 × BitVec 16) :=
  k.engine.bind fun e =>
    let w := k.engineWord e
    if raises w then some (Config.faultTable (BitVec.ofNat 8 (litField w))) else none

/-- Whether the engine stands at a word that raises an exception: the instruction can only take that (09 R245). -/
def Core.raising (k : Core) : Bool := k.engine.any fun e => raises (k.engineWord e)

/-- Whether the entry word of a micro-coded instruction that has not begun fails: it is never executed (09 R238, R247). -/
def Core.entryFails (k : Core) (opc : Nat) : Bool :=
  microCoded opc && k.held.isNone && k.engine.isNone && k.wordFails (BitVec.ofNat 13 opc) 0

/-- RSM of the progress word at which the engine stands, with micro-temporary 0xE; else DONE plus the unit under a USTATE layout, as the
routine of a unit's instruction has it (09 R243). -/
def Core.rsm (k : Core) (layout : BitVec 4) : BitVec 6 × Nat :=
  match k.engine with
  | some e =>
    if commitCode (k.engineWord e) = 1 then
      (rsmField (k.engineWord e), ((e.temps.find? (·.1 == 0xE)).map fun t => getField t.2 0 64).getD 0)
    else ((1 : BitVec 2) ++ layout, 0)
  | none => ((1 : BitVec 2) ++ layout, 0)

end Sys2Proof.Machine
end

