-- ==== Sys2Proof/Machine/Journal.lean ====
section
/-! DEFINITION. Journal segments, their claims and undo copies, the rollback, and the loss of a core with its way to paddock
(12 R313, R320–R324, R336, 16 R404, 10 R277). -/

namespace Sys2Proof.Machine

open Sys2Proof

/-- Home yard of a session index (12, after Table 12.1). -/
def homeOf (sidx : BitVec 16) : Yard := if sidx.getLsbD 0 then .b else .a

/-- Bytes of ring space that a `JOPEN` reserves (12 R334). -/
def reservation : Nat := 164096

/-- The segment with a number. -/
def State.segment (s : State) (segno : Nat) : Option Segment := s.segments.find? (·.segno == segno)

/-- The segment a core holds, open or waiting to be closed. -/
def State.coreSegment (s : State) (c : CoreId) : Option Segment :=
  if (s.core c).jopen then s.segment (s.core c).segno.toNat else none

/-- The steward's own state changed. -/
def State.modOwn (s : State) (f : StewardSession → StewardSession) : State :=
  { s with steward := { s.steward with own := f s.steward.own } }

/-- Whether SMBus answers: REFCLK runs the steward (19 R456), from ST0 on (13 R361). -/
def State.smbusUp (s : State) : Bool := s.pins.vaux && s.pins.refclk

/-- Whether the steward serves its requests: not in standby, nor from step 2 of a warm reset on, when every open segment has been rolled
back (18 R432, R439). -/
def State.stewardServes (s : State) : Bool := s.smbusUp && !s.steward.standby && !s.steward.warmWait

/-- The segment that the steward holds. -/
def State.stewardSegment (s : State) : Option Segment :=
  if s.steward.own.jopen then s.segment s.steward.own.segno.toNat else none

/-- The core's segment while it accepts writes: from its `JOPEN` to its seal point (12 R313). -/
def State.writingSegment (s : State) (c : CoreId) : Option Segment :=
  (s.coreSegment c).bind fun g => if g.state = .writing then some g else none

/-- The segment with a number replaced. -/
def State.modSegment (s : State) (segno : Nat) (f : Segment → Segment) : State :=
  { s with segments := s.segments.map fun g => if g.segno = segno then f g else g }

/-- The claim on a 64 B line, if any. -/
def YardState.claimOn (k : YardState) (line : Nat) : Option Claim := k.claims.find? (·.line == line)

/-- Addresses of the 64 B lines that a byte range touches, ascending. -/
def linesOf (a n : Nat) : List Nat :=
  if n = 0 then [] else (List.range ((a + n - 1) / 64 - a / 64 + 1)).map fun i => (a / 64 + i) * 64

/-- Whether an address lies in a journaled page. -/
def State.journaled (s : State) (a : Nat) : Bool :=
  decide (s.region a = .main) && attrJrn (s.attr (pageOf a))

/-- The lines of a range in journaled pages that a segment has not claimed, ascending (12 R320). -/
def State.unclaimed (s : State) (segno a n : Nat) : List Nat :=
  (linesOf a n).filter fun l =>
    s.journaled l && ((s.yard (yardOf l)).claimOn l).map (·.segno) != some segno

/-- The undo copy of a line as the yard holds it: data zero tagged POISON in a lost line (12 R320, 11 R301). -/
def State.undoOf (s : State) (segno line : Nat) : Claim :=
  if s.lostAt line then ⟨line, segno, List.replicate 64 0, List.replicate 8 Tag.poison, 0⟩
  else ⟨line, segno, s.mem.bytes line 64, (List.range 8).map fun w => s.mem.tagAt (line + 8 * w), 0⟩

/-- Sets CHG of a page at a grant (12 R320). -/
def State.setChg (s : State) (page : Nat) : State :=
  s.putAttr page (s.mem.byte (attrAddr page) ||| 0x01)

/-- An undo copy as it is restored: a word with an uncorrectable error as data zero tagged POISON (12 R336). -/
def Claim.restored (u : Claim) : List Byte × List Tag :=
  ((List.range 64).map fun i => if u.bad.getLsbD (i / 8) then 0 else u.undo.getD i 0,
   (List.range 8).map fun w => if u.bad.getLsbD w then Tag.poison else u.undoTags.getD w Tag.bin)

/-- Writes an undo copy back as a yard write; words that could not be corrected are reported (12 R336, 11 R296). -/
def State.restoreLine (s : State) (u : Claim) : State :=
  let y := yardOf u.line
  let s := s.perform none ⟨u.line, u.restored.1, u.restored.2⟩
  if u.bad = 0 then s
  else
    (s.modYard y fun k => { k with pcount := min (k.pcount + 1) 0xFFFFFF }).log 0x11 3 (yardNum y) (lineNo u.line)
      (u.bad.toNat * 2 ^ (u.line % 256 / 8)) (BitVec.ofNat 64 (u.line / 256 * 256))

/-- Insertion of a claim by rising line. -/
def insertClaim (u : Claim) : List Claim → List Claim
  | [] => [u]
  | v :: t => if u.line ≤ v.line then u :: v :: t else v :: insertClaim u t

/-- Claims in ascending line order. -/
def sortClaims (l : List Claim) : List Claim := l.foldr insertClaim []

/-- Drops a segment's claims and requests from a yard, and its reservation from its home ring. -/
def YardState.dropSegment (k : YardState) (segno : Nat) (home : Bool) : YardState :=
  { k with
    claims := k.claims.filter (·.segno != segno)
    claimReqs := k.claimReqs.filter (·.segno != segno)
    ring := if home then { k.ring with reserved := k.ring.reserved - reservation } else k.ring }

/-- A ledger core by its number in a record, if it is one. -/
def coreOfNum (n : Nat) : Option CoreId := if h : n < 96 then some ⟨n, h⟩ else none

/-- The owner that a core number of a record stands for: the steward for 0x60 to 0x63 (12 Table 12.2). -/
def ownerOfNum (n : Nat) : Owner := if h : n < 96 then ⟨n, by omega⟩ else 96

/-- The segment of an owner while it accepts writes. -/
def State.writingOf (s : State) (o : Owner) : Option Segment :=
  match coreOfNum o.val with
  | some c => s.writingSegment c
  | none => s.stewardSegment.bind fun g => if g.state = .writing then some g else none

/-- What a rollback of a segment that has not reached its seal point does (12 R336): its undo copies written back in ascending line
order within each yard, its slots, claims and reservation freed, JSEG.OPEN := 0. Stores of its core that still wait in the
store buffer are performed first, so that none follows its claim. -/
def State.undoSegment (s : State) (segno : Nat) : State :=
  match s.segment segno with
  | none => s
  | some g =>
    if g.state ≠ .writing then s
    else
      let s := match coreOfNum g.core.toNat with
        | some c => s.drainAll c
        | none => s
      let undo y := sortClaims ((s.yard y).claims.filter (·.segno == segno))
      let s := (undo .a ++ undo .b).foldl State.restoreLine s
      let s := s.modYard .a fun k => k.dropSegment segno (homeOf g.sidx == .a)
      let s := s.modYard .b fun k => k.dropSegment segno (homeOf g.sidx == .b)
      let s := { s with segments := s.segments.filter (·.segno != segno) }
      match coreOfNum g.core.toNat with
      | some c => s.modCore c fun k => if k.segno.toNat = segno then { k with jopen := false } else k
      | none => s.modOwn fun k => if k.segno.toNat = segno then { k with jopen := false } else k

/-! ## Requests and the loss of a core -/

/-- Whether a request is the one that a segment's session and request ID name; SUBMIT_READONLY seals nothing (12 R315). -/
def Request.is (r : Request) (sidx : BitVec 16) (rid : Word) : Bool :=
  r.sidx == sidx && r.rid == rid && r.entry.headD 0 != 3

/-- Whether a request stands offered to an owner, and in which slot. -/
def Request.offeredTo (r : Request) (o : Nat) : Option (Fin 32) :=
  match r.phase with
  | .offered p n => if p.val = o then some n else none
  | _ => none

/-- Whether an owner has taken a request and not posted it, and in which slot. -/
def Request.takenBy (r : Request) (o : Nat) : Option (Fin 32) :=
  match r.phase with
  | .taken p n => if p.val = o then some n else none
  | _ => none

/-- A core as an owner. -/
def ownerOf (c : CoreId) : Owner := ⟨c.val, by omega⟩

/-- The dispatch-table entry of an owner. -/
def State.entry (s : State) (o : Owner) : DispEntry := s.dispatch[o]

/-- DT.EN of a core set. -/
def State.setEn (s : State) (c : CoreId) (en : Bool) : State :=
  { s with dispatch := s.dispatch.set c.val { s.entry (ownerOf c) with en := en } (by omega) }

/-- Owner of the slot that holds a descriptor of a request that no `WAITD` has taken, or that waits for its payload. -/
def Request.untakenAt (r : Request) : Option Nat :=
  match r.phase with
  | .payload o _ => some o.val
  | .offered o _ => some o.val
  | _ => none

/-- Untaken descriptors of an owner are withdrawn, which is no loss: their requests are queued again for the new owner that the steward names
(07 R211, 16 R406). A run that was offered stays counted (DEDUCED, log entry 59). -/
def State.withdraw (s : State) (o : Nat) : State :=
  { s with requests := s.requests.map fun r =>
      match r.phase with
      | .payload p _ => if p.val = o then { r with phase := .returning p } else r
      | .offered p _ => if p.val = o then { r with phase := .returning p } else r
      | _ => r }

/-- Segments of a core that still accept writes. -/
def State.openSegments (s : State) (c : CoreId) : List Segment :=
  s.segments.filter fun g => g.state == SegState.writing && g.core.toNat == c.val

/-- A core is lost: each request it had taken is marked with the state of its segments at the loss, which for a core that an event has
stopped is the stop, its untaken descriptors are withdrawn, and its segment that accepts writes is rolled back (16 R404, 12 Table
12.5). -/
def State.loseCore (s : State) (c : CoreId) : State :=
  let open_ := s.openSegments c
  let then_ := ((s.core c).stop.map (·.open_)).getD []
  let mark (r : Request) : Request :=
    if (r.takenBy c.val).isSome then
      { r with
        phase := .lost (ownerOf c) ((open_.any fun g => r.is g.sidx g.rid) || then_.any fun x => r.is x.1 x.2)
        losses := r.losses + 1 }
    else r
  let s := { s with requests := s.requests.map mark }.withdraw c.val
  (open_.foldl (fun s g => s.undoSegment g.segno) s).drainAll c

/-- A core lets go of a segment past its seal point; one that has its outcome is forgotten. -/
def State.releaseSegment (s : State) (c : CoreId) : State :=
  let s := s.modCore c fun k => { k with jopen := false }
  { s with segments := s.segments.filter fun g => !(g.core.toNat == c.val && g.outcome.isSome) }

/-- The abandoned `SEAL` or `SEALA` of a core that has not reached its seal point leaves nothing done (12 R317). -/
def State.abandonSeal (s : State) (c : CoreId) : State :=
  { s with segments := s.segments.map fun g =>
      if g.state = .writing ∧ g.core.toNat = c.val then { g with request := none } else g }

/-- Whether a stripe can be borrowed: its shed awake, and outside paddock none of the tack region (10 R276). -/
def State.canBorrow (s : State) (c : CoreId) (stripe : Nat) : Bool :=
  !s.sheds[shedOf c].retained && (decide (4 ≤ stripe) || (s.core c).run == .paddock)

/-- An idle march engine takes up the first stripe that waits for it and can be borrowed (17 R415). -/
def State.nextMarch (s : State) (h : ShedId) : State :=
  if s.sheds[h].march.isSome then s
  else
    match s.sheds[h].marchDue.find? fun d => s.canBorrow d.1 d.2 with
    | some d => s.modShed h fun k => { k with march := some ⟨d.1, d.2, 0⟩, marchDue := k.marchDue.filter (· != d) }
    | none => s

/-- The steward puts a core in paddock: its requests are lost with it, and the Gate dispatches nothing to it. A march of its tack region
that was due can now be made (17 R415). -/
def State.toPaddock (s : State) (c : CoreId) : State :=
  let s := ((s.abandonSeal c).loseCore c).releaseSegment c
  let en := (s.entry (ownerOf c)).en
  let s := s.modCore c fun k => { k with
    run := .paddock, savedEn := k.savedEn || en, wait := none, held := none, engine := none, delay := none, paddockDue := false
    stop := none }
  (s.setEn c false).nextMarch (shedOf c)

/-- Whether what a core runs has sealed or rolled back (10 R277): it holds no segment that accepts writes, and every request that it has
taken has a segment sealed in this run. -/
def State.requestSettled (s : State) (c : CoreId) : Bool :=
  (s.openSegments c).isEmpty && s.requests.all fun r => (r.takenBy c.val).isNone || decide (0 < r.runSegs)

/-- A core with an unrepaired row goes to paddock once its current request has sealed or rolled back (10 R277). -/
def State.settlePaddock (s : State) (c : CoreId) : State :=
  if (s.core c).paddockDue && s.requestSettled c then s.toPaddock c else s

/-- The same after a rollback of the core's segment. -/
def State.rolledPaddock (s : State) (c : CoreId) : State :=
  if (s.core c).paddockDue && (s.openSegments c).isEmpty then s.toPaddock c else s

/-! ## Rollbacks and claims -/

/-- Rollback of a segment that has not reached its seal point (12 R336); a core with an unrepaired row then goes to paddock (10 R277). -/
def State.rollback (s : State) (segno : Nat) : State :=
  match (s.segment segno).bind fun g => if g.state = .writing then coreOfNum g.core.toNat else none with
  | some c => (s.undoSegment segno).rolledPaddock c
  | none => s.undoSegment segno

/-- Rollback by another than the segment's own instruction: the fault waits for the core's next instruction boundary
(12 R324). -/
def State.rollbackOwed (s : State) (segno line : Nat) : State :=
  match (s.segment segno).bind fun g => coreOfNum g.core.toNat with
  | none => s.rollback segno
  | some c => (s.rollback segno).modCore c fun k => { k with owedFault := some (BitVec.ofNat 64 line) }

/-- Whether a segment has asked for a line. -/
def YardState.asked (k : YardState) (segno line : Nat) : Bool := k.claimReqs.any fun r => r.line == line && r.segno == segno

/-- Claims that a segment holds in a yard or has asked for: of 1,024 undo slots (12 R321). -/
def YardState.claimCount (k : YardState) (segno : Nat) : Nat :=
  (k.claims.filter (·.segno == segno)).length + (k.claimReqs.filter (·.segno == segno)).length

/-- Sends claim requests, once per segment and line (12 R320, R323); the first beyond the limit is refused (R321). -/
def State.requestClaims (s : State) (o : Owner) (opnd segno : Nat) : List Nat → Except Nat State
  | [] => .ok s
  | line :: t =>
    let k := s.yard (yardOf line)
    if k.asked segno line then s.requestClaims o opnd segno t
    else if 1024 ≤ k.claimCount segno then .error line
    else (s.modYard (yardOf line) fun k => { k with claimReqs := k.claimReqs ++ [⟨line, segno, o, opnd⟩] }).requestClaims o opnd segno t

end Sys2Proof.Machine
end

