-- ==== Sys2Proof/Machine/Operands.lean ====
section
/-! DEFINITION. Operand specifiers and their encoding checks (03 R69–R79, Table 3.17), the places operands name, the ordered
access checks (02 R45, 07 Table 7.2 ranks 6 to 8), and reading and writing what an operand names. -/

namespace Sys2Proof.Machine

open Sys2Proof

/-! ## Specifiers and encoding checks -/

/-- Operand roles (03 Table 3.6): `vi` is a value source that is a binary-integer operand (R462), and `pf` a predicate
whose imm9 holds a function (R463). -/
inductive Role where
  | v | vi | d | u | m | w | c | g | p | pf | i | raw | unused
  deriving DecidableEq, Repr

/-- Mode of a specifier. -/
def specMode (sp : BitVec 16) : Nat := getField sp 13 3
/-- Register of a specifier. -/
def specReg (sp : BitVec 16) : BitVec 4 := sp.extractLsb' 9 4
/-- imm9 of a specifier as a bit field. -/
def specImm (sp : BitVec 16) : Nat := getField sp 0 9
/-- imm9 as a signed number. -/
def specNum (sp : BitVec 16) : Int := (sp.extractLsb' 0 9).toInt

/-- Whether a role allows a mode (03 Table 3.6). -/
def Role.allows (r : Role) (mode : Nat) : Bool :=
  match r with
  | .v => mode != 6
  | .vi => true
  | .d | .u => mode != 5 && mode != 6
  | .m => mode != 0 && mode != 6
  | .w => mode != 0 && mode != 5 && mode != 6
  | .c | .g | .p | .pf => mode == 0
  | .i => mode == 6
  | .raw | .unused => true

/-- Whether a role names a memory operand in modes 1 to 5 and 7. -/
def Role.inMemory (r : Role) : Bool :=
  match r with
  | .v | .vi | .d | .u | .m | .w => true
  | _ => false

/-- Whether every must-be-zero field of a specifier is zero (03 Table 3.5). -/
def Role.zeroOk (r : Role) (sp : BitVec 16) : Bool :=
  match r with
  | .unused => sp == 0
  | .raw => true
  | _ =>
    match specMode sp with
    | 0 => match r with
      | .p => !(specReg sp).getLsbD 3 && specImm sp == 0
      | .pf => !(specReg sp).getLsbD 3
      | _ => specImm sp == 0
    | 2 => specImm sp % 8 == 0
    | 5 | 6 => specReg sp == 0
    | _ => true

/-- What the encoding checks need of an instruction: its roles, which operands are 16 B values, whether A is a C-register
destination, the fields of its own that must be zero with the specifier that holds them, the values of its own that lie out of range
(row 3c, with the specifier that holds them and the cause), and whether it may not stand in a delay slot (03 Table 3.17). -/
structure Enc where
  a : Role
  b : Role
  c : Role
  wideA : Bool := false
  wideB : Bool := false
  wideC : Bool := false
  cdest : Bool := false
  zero : L64 → Bool := fun _ => true
  zeroIn : Nat := 2
  range : L64 → Option (Nat × Nat) := fun _ => none
  transfer : Bool := false

/-- A 16 B value operand in mode 0 whose register does not start a pair (03 R78). -/
def badPair (wide : Bool) (sp : BitVec 16) : Bool :=
  wide && specMode sp == 0 && (specReg sp == 0 || (specReg sp).getLsbD 0)

/-- The C register a memory specifier updates (03 R73). -/
def specUpdates (r : Role) (sp : BitVec 16) : List (BitVec 4) :=
  if r.inMemory && (specMode sp == 3 || specMode sp == 4) then [specReg sp] else []

/-- Whether a list holds some entry twice. -/
def hasDup : List (BitVec 4) → Bool
  | [] => false
  | x :: t => t.contains x || hasDup t

/-- The first of the specifiers A, B and C that fails a check. -/
def firstOf (a b c : Bool) : Option Nat := if a then some 0 else if b then some 1 else if c then some 2 else none

/-- The encoding checks of 03 Table 3.17 in order; the answer is CAUSE.OPND and the cause code. The operand is the specifier that fails
its row, its raw field included; a conflict between specifiers and the delay-slot rule lie in no one operand (07 R188; DEDUCED, log
entry 18). -/
def Enc.fault (e : Enc) (w : L64) (inSlot : Bool) : Option (Nat × Nat) :=
  let ups := specUpdates e.a w.sa ++ specUpdates e.b w.sb ++ specUpdates e.c w.sc
  let own (n : Nat) : Bool := e.zeroIn == n && !e.zero w
  let mode := firstOf (!e.a.allows (specMode w.sa)) (!e.b.allows (specMode w.sb)) (!e.c.allows (specMode w.sc))
  let zero := firstOf (!e.a.zeroOk w.sa || own 0) (!e.b.zeroOk w.sb || own 1) (!e.c.zeroOk w.sc || own 2)
  let pair := firstOf (badPair e.wideA w.sa) (badPair e.wideB w.sb) (badPair e.wideC w.sc)
  let clash := hasDup ups || (e.cdest && ups.contains (specReg w.sa))
  (mode.map fun n => (n, 2)) <|> (zero.map fun n => (n, 1)) <|> e.range w <|> (pair.map fun n => (n, 3))
    <|> (if clash then some (3, 4) else none) <|> if inSlot && e.transfer then some (3, 5) else none

/-! ## Reading memory as a core sees it -/

/-- What port A does to the shed-window word that holds an address while the instruction in hand accesses it, if it uses it
(10 R264). -/
def State.portHit (s : State) (c : CoreId) (a : Nat) : Option PortHit :=
  (s.core c).ports.find? fun h => h.addr == a / 8 * 8

/-- Whether a read of the word that holds an address meets a write by port A (10 Table 10.3). -/
def State.collides (s : State) (c : CoreId) (a : Nat) : Bool := (s.portHit c a).any (·.use == .write)

/-- Address of the first collided word that a byte range touches. -/
def State.firstCollided (s : State) (c : CoreId) (a n : Nat) : Option Nat :=
  if (s.core c).ports = [] then none
  else ((List.range (wordSpan a n)).map fun i => 8 * (a / 8 + i)).find? (s.collides c)

/-- The undefined data of a collided word: a free value, each use of the counter giving another word (10 R264, log entry 3). -/
def State.collidedWord (s : State) (c : CoreId) (a : Nat) : Word :=
  Config.collidedData (s.fresh + (s.core c).ports.findIdx fun h => h.addr == a / 8 * 8)

/-- An UNINIT word that may be read returns tag BIN (02 R29). -/
def readTag (t : Tag) : Tag := if t = Tag.uninit then Tag.bin else t

/-- The tag of a word that comes with a code from outside: one of the codes that 02 Table 2.7 never stores stands for POISON (DESIGN CHOICE,
log entry 170). -/
def storedTag (t : Tag) : Tag := if 9 ≤ t.toNat ∧ t.toNat ≤ 13 then Tag.poison else t

/-- The tag of a word within memory `m`, which stands for what a core sees of main memory. -/
def State.tagIn (s : State) (m : Memory) (c : CoreId) (a : Nat) : Tag :=
  match s.region a with
  | .main =>
    if s.lostAt a then Tag.poison
    else storedTag (m.tagAt a)
  | .own => storedTag (s.mem.tagAt (s.key c a))
  | .window => if s.collides c a then Tag.poison else storedTag (s.mem.tagAt (s.key c a))
  | _ => Tag.bin

/-- A byte within memory `m`, which stands for what a core sees of main memory. -/
def State.byteIn (s : State) (m : Memory) (c : CoreId) (a : Nat) : Byte :=
  match s.region a with
  | .main => if s.lostAt a then 0 else m.byte a
  | .own => s.mem.byte (s.key c a)
  | .window =>
    if s.collides c a then (s.collidedWord c a).extractLsb' (a % 8 * 8) 8 else s.mem.byte (s.key c a)
  | .ccs => (s.ccsRead c ((a - 0x02000000) / 8 * 8)).extractLsb' (a % 8 * 8) 8
  | .none => 0

/-- The stored tag of the word that holds an address, as a core sees it. -/
def State.tagSeen (s : State) (c : CoreId) (a : Nat) : Tag := s.tagIn (s.view c) c a

/-- A byte as a core sees it. -/
def State.byteSeen (s : State) (c : CoreId) (a : Nat) : Byte := s.byteIn (s.view c) c a

/-- Bytes as a core sees them. -/
def State.bytesSeen (s : State) (c : CoreId) (a n : Nat) : List Byte :=
  let m := s.view c
  (List.range n).map fun i => s.byteIn m c (a + i)

/-- Length of the instruction stored at an address (03 R59). -/
def State.lengthAt (s : State) (c : CoreId) (a : Nat) : Nat :=
  if getField (s.byteSeen c (a + 1)) 6 2 = 3 then 8 else 2

/-- Stored tags of the words a range touches. -/
def State.tagsSeen (s : State) (c : CoreId) (a n : Nat) : List Tag :=
  let m := s.view c
  (List.range (wordSpan a n)).map fun i => s.tagIn m c (8 * (a / 8 + i))

/-- Tag of a load from several words: POISON if any is POISON, the common tag, else BIN (04 R104). -/
def combineTags (ts : List Tag) : Tag :=
  match ts.map readTag with
  | [] => Tag.bin
  | t :: r => if (t :: r).contains Tag.poison then Tag.poison else if r.all (· == t) then t else Tag.bin

/-! ## Places -/

/-- Address of a memory operand, 0 for a register. -/
def Opd.addr (o : Opd) : Nat :=
  match o.place with
  | .mem _ a => a.toNat
  | _ => 0

/-- Resolves a specifier with element size `elem` (03 Table 3.5, R70, R71). -/
def State.resolve (s : State) (c : CoreId) (n : Nat) (sp : BitVec 16) (elem : Nat) : Opd :=
  let k := s.core c
  let r := specReg sp
  let cap := k.getC r
  let cur : Int := cap.cursor.toNat
  let d := specNum sp
  match specMode sp with
  | 0 => { n, place := .reg r }
  | 1 => { n, place := .mem cap (cur + d * elem) }
  | 2 =>
    let x : BitVec 4 := sp.extractLsb' 5 4
    { n, place := .mem cap (cur + (k.getG x).val.toInt * 2 ^ getField sp 3 2), idx := some x }
  | 3 => { n, place := .mem cap cur, upd := some (r, cur + d * elem) }
  | 4 => { n, place := .mem cap (cur - d * elem), upd := some (r, cur - d * elem) }
  | 5 => { n, place := .mem k.pcc (k.pcc.cursor.toNat + d * 8) }
  | 6 => { n, place := .imm (word d) }
  | _ =>
    let p := cur + d * 8
    { n, place := .mem cap (leNat (s.bytesSeen c p.toNat 8)), ptr := some (cap, p) }

/-! ## What is checked -/

/-- How the contents of an operand are taken (02 Table 2.9): moved, interpreted in a class, as a capability pair (`CLD`), or
only its stored tag reported (`TAGGET`). -/
inductive Cls where
  | move | bin | pdec | text | f64 | d64 | d128 | cap | tag
  deriving DecidableEq, Repr

/-- Whether a class accepts a tag at TCHK = 1, or at 2 and 3 (02 Table 2.9). -/
def Cls.accepts (cl : Cls) (level : Nat) (t : Tag) : Bool :=
  let own : Tag := match cl with
    | .pdec => Tag.pdec
    | .text => Tag.text
    | .f64 => Tag.f64
    | .d64 => Tag.d64
    | .d128 => Tag.d128
    | _ => Tag.bin
  match cl with
  | .move | .cap | .tag => true
  | .bin => t == Tag.bin || (level == 1 && (t == Tag.pdec || t == Tag.text))
  | _ => t == own || (level == 1 && t == Tag.bin)

/-- Whether a class interprets. -/
def Cls.interprets (cl : Cls) : Bool :=
  match cl with
  | .move | .cap | .tag => false
  | _ => true

/-- TAG_FAULT cause of interpreting a tag (02 R28, R31). -/
def Core.tagCause (k : Core) (cl : Cls) (t : Tag) : Option Nat :=
  if !cl.interprets then none
  else if t = Tag.poison then some 2
  else if k.tchk ≠ 0 ∧ ¬ cl.accepts k.tchk t then some 5
  else none

/-- A memory range an instruction accesses: under which capability, how its words are taken when read, permissions beyond R
and W, its alignment with the cause, the result tag of the words written (`wtags` for the first of them, `wtag` for the
rest), the regions an atomic accepts, whether the access is made at all (an `STCN` that fails makes none), and whether it is a
load or a store as core control space takes them (07 R204, log entry 16). -/
structure MemUse where
  cap : Cap
  addr : Int
  len : Nat
  rd : Bool
  wr : Bool
  cls : Cls
  perms : List Perm := []
  align : Option (Nat × Nat) := none
  wtags : List Tag := []
  wtag : Tag := Tag.bin
  atomic : Option (List Region) := none
  keyed : Bool := true
  plain : Bool := true

/-- Whether a range is a load or a store: the fields, strings and tables of the decimal and string groups are none. -/
def MemUse.load (m : MemUse) : Bool := m.plain && m.cls != .pdec && m.cls != .text

/-- What one operand makes the instruction check: a named C register (and whether it may be sealed), interpreted registers,
a memory range, a pointer word. -/
structure Use where
  n : Nat
  auth : Option (Cap × Bool) := none
  regs : List (BitVec 4 × Cls) := []
  mem : Option MemUse := none
  ptr : Option (Cap × Int) := none

/-- Result tags of every word of a range. -/
def tagsFor (a n : Nat) (t : Tag) : List Tag := List.replicate (wordSpan a n) t

/-- A G register's tag as a store writes it (02 Table 2.10). -/
def storeTag (t : Tag) : Tag := if isCapTag t ∨ t = Tag.code then Tag.bin else t

/-- The checks of a resolved value or field operand of `len` bytes. -/
def Opd.use (o : Opd) (rd wr : Bool) (len : Nat) (cls : Cls) (wtag : Tag) : Use :=
  match o.place with
  | .reg r => { n := o.n
                regs := if rd then (if len = 16 then [(r, cls), (r + 1, cls)] else [(r, cls)]) else [] }
  | .imm _ => { n := o.n }
  | .mem cap a => { n := o.n
                    regs := (o.idx.map fun x => (x, Cls.bin)).toList
                    mem := some { cap, addr := a, len, rd, wr, cls, wtag }
                    ptr := o.ptr }

/-- A use with its memory range adjusted. -/
def Use.onMem (u : Use) (f : MemUse → MemUse) : Use := { u with mem := u.mem.map f }

/-! ## The checks -/

/-- An exception of an operand. -/
def operandExc (n vec code : Nat) (faddr : Int) : ExcOperand :=
  ⟨Fin.ofNat 64 vec, BitVec.ofNat 16 code, BitVec.ofNat 2 n, word faddr⟩

/-- Capability an operand draws on, with whether it may be sealed, and the address a fault reports: the range's first byte,
or zero for a named C register. -/
def Use.authority (u : Use) : List (Cap × Bool × Int) :=
  (u.auth.map fun a => (a.1, a.2, (0 : Int))).toList
    ++ (u.mem.bind fun m => if m.len = 0 then none else some (m.cap, false, m.addr)).toList

/-- R45 step 1, validity. -/
def Use.validFault (u : Use) : Option ExcOperand :=
  u.authority.findSome? fun (cap, _, a) => if cap.valid then none else some (operandExc u.n 6 1 a)

/-- R45 step 1, sealing. -/
def Use.sealFault (u : Use) : Option ExcOperand :=
  u.authority.findSome? fun (cap, ok, a) => if cap.sealed && !ok then some (operandExc u.n 6 2 a) else none

/-- R45 step 1, bounds: the whole range within [base, top) and within the address space (02 R39, 03 R71). -/
def Use.boundsFault (u : Use) : Option ExcOperand :=
  u.mem.bind fun m =>
    let lo := max m.cap.base 0
    let hi := min m.cap.top (2 ^ 64)
    if m.len = 0 ∨ (lo ≤ m.addr ∧ m.addr + m.len ≤ hi) then none
    else some (operandExc u.n 6 3 (if m.addr < lo then m.addr else max m.addr hi))

/-- Whether a byte range touches core control space (02 Table 2.15). -/
def touchesCcs (a n : Nat) : Bool := decide (a < 0x02010000 ∧ 0x02000000 < a + n)

/-- R45 step 1, permission (02 Table 2.13). -/
def Use.permFault (u : Use) : Option ExcOperand :=
  u.mem.bind fun m =>
    let need := (if m.rd then [Perm.r] else []) ++ (if m.wr then [Perm.w] else []) ++ m.perms
      ++ (if touchesCcs m.addr.toNat m.len then [Perm.sys] else [])
    if m.len = 0 ∨ need.all m.cap.has then none else some (operandExc u.n 6 4 m.addr)

/-- First byte of a range that lies in a page. -/
def pageStart (a : Int) (page : Nat) : Int := max a (mainBase + page * 4096 : Nat)

/-- Pages of main memory, journal region and attribute table included, that a byte range touches, ascending (02 R42). -/
def mainPages (a n : Nat) : List Nat := pagesOf (max a mainBase) (min (a + n) mainTop - max a mainBase)

/-- R45 step 2 (02 R42). -/
def Use.keyFault (s : State) (c : CoreId) (u : Use) : Option ExcOperand :=
  u.mem.bind fun m =>
    if m.keyed = false ∨ m.cap.has .sys then none
    else (mainPages m.addr.toNat m.len).findSome? fun p =>
      let b := s.pageByte c p
      if attrKey b = m.cap.key then none
      else if m.wr then some (operandExc u.n 7 1 (pageStart m.addr p))
      else if attrRlk b then some (operandExc u.n 7 2 (pageStart m.addr p))
      else none

/-- The tag a write leaves on a word whose tag is `cur` (02 R33). -/
def tagAfter (cur : Tag) (whole : Bool) (t : Tag) : Tag :=
  if whole then t else if isCapTag cur then Tag.bin else if cur = Tag.poison then cur else t

/-- Tag faults of word i of a range: reading (02 R28, R31), then writing at TCHK = 3 (02 R32). A collided word is left to rank 9
(10 R266). -/
def State.wordTagCause (s : State) (c : CoreId) (m : MemUse) (i : Nat) : Option Nat :=
  let k := s.core c
  let a := m.addr.toNat
  let w := a / 8 + i
  let t := s.tagSeen c (8 * w)
  let new := tagAfter t (coversWord a m.len w) (m.wtags.getD i m.wtag)
  let rd := m.rd && !s.collides c (8 * w)
  if rd ∧ m.cls ≠ .tag ∧ t = Tag.uninit ∧ k.uninitTrap then some 1
  else
    match (if rd then k.tagCause m.cls (readTag t) else none) with
    | some code => some code
    | none =>
      if m.wr ∧ k.tchk = 3 ∧ new ≠ t ∧ t ≠ Tag.bin ∧ t ≠ Tag.uninit ∧ t ≠ Tag.poison then some 6 else none

/-- The `CLD` pair: CAPL at the 16 B-aligned word and CAPH at the next (02 R28). -/
def State.pairFault (s : State) (c : CoreId) (n : Nat) (m : MemUse) : Option ExcOperand :=
  let w := m.addr.toNat / 16 * 16
  if m.cls ≠ .cap ∨ m.rd = false ∨ s.collides c w ∨ s.collides c (w + 8) then none
  else if s.tagSeen c w ≠ Tag.capl then some (operandExc n 5 4 m.addr)
  else if s.tagSeen c (w + 8) ≠ Tag.caph then some (operandExc n 5 4 (max m.addr (w + 8 : Nat)))
  else none

/-- Of two faults the one at the lower address, the first where both lie at one (02 R45). -/
def lowerFault : Option ExcOperand → Option ExcOperand → Option ExcOperand
  | some x, some y => if y.faddr < x.faddr then some y else some x
  | x, y => x <|> y

/-- R45 step 3: index and value registers, then the words of the range in ascending order. A marked register is left to
rank 9 (10 R266). A word that is UNINIT and not the one its pair needs is reported as UNINIT (DESIGN CHOICE, log entry 124). -/
def Use.tagFault (s : State) (c : CoreId) (u : Use) : Option ExcOperand :=
  let k := s.core c
  let inReg := u.regs.findSome? fun (r, cl) =>
    let g := k.getG r
    if g.mark.isSome then none else (k.tagCause cl g.tag).map fun code => operandExc u.n 5 code 0
  let inMem := u.mem.bind fun m =>
    if m.len = 0 then none
    else lowerFault ((List.range (wordSpan m.addr.toNat m.len)).findSome? fun i =>
      (s.wordTagCause c m i).map fun code =>
        operandExc u.n 5 code (max m.addr (8 * (m.addr.toNat / 8 + i) : Nat))) (s.pairFault c u.n m)
  inReg <|> inMem

/-- R45 step 4. -/
def Use.alignFault (u : Use) : Option ExcOperand :=
  u.mem.bind fun m => m.align.bind fun (n, code) =>
    if m.addr % n = 0 then none else some (operandExc u.n 8 code m.addr)

/-- R45 step 5 (12 R313). -/
def Use.journalFault (s : State) (c : CoreId) (u : Use) : Option ExcOperand :=
  u.mem.bind fun m =>
    if m.wr = false ∨ m.keyed = false then none
    else
      match (mainPages m.addr.toNat m.len).find? fun p => attrJrn (s.attr p) with
      | none => none
      | some p =>
        if !m.cap.has .jrn then some (operandExc u.n 21 2 (pageStart m.addr p))
        else if (s.writingSegment c).isNone then some (operandExc u.n 21 1 (pageStart m.addr p))
        else none

/-- First address past the region that holds an address. -/
def State.regionEnd (s : State) (a : Nat) : Nat :=
  match s.region a with
  | .own => 0x80000
  | .window => 0x01400000
  | .ccs => 0x02010000
  | .main => s.journalBase
  | .none => a

/-- First byte of a range that no region holds (02 R49, 11 R287). -/
def State.firstUnmapped (s : State) (a n : Nat) : Option Nat :=
  if a + n ≤ s.regionEnd a ∧ s.region a ≠ .none then none else some (s.regionEnd a)

/-- The core of a shed at a window slot. -/
def slotCore (c : CoreId) (n : Nat) : CoreId :=
  ⟨c.val / 8 * 8 + n % 8, by have := c.isLt; omega⟩

/-- Whether a window slot of a core's shed can not be reached (10 R257). -/
def State.remoteUnavailable (s : State) (c : CoreId) (n : Nat) : Bool :=
  let t := slotCore c n
  t != c && ((s.core t).run == .paddock || s.sheds[shedOf c].retained)

/-- First byte of a window range whose slot is unavailable. -/
def State.firstUnavailable (s : State) (c : CoreId) (a n : Nat) : Option Nat :=
  if s.region a ≠ .window ∨ n = 0 then none
  else
    let s0 := (a - 0x01000000) / 0x80000
    let s1 := (a + n - 1 - 0x01000000) / 0x80000
    ((List.range (s1 - s0 + 1)).find? fun i => s.remoteUnavailable c (s0 + i)).map fun i =>
      max a (0x01000000 + (s0 + i) * 0x80000)

/-- Rank 7, first part: unmapped bytes (02 R49). -/
def Use.unmappedFault (s : State) (u : Use) : Option ExcOperand :=
  u.mem.bind fun m =>
    if m.len = 0 then none
    else (s.firstUnmapped m.addr.toNat m.len).map fun a => operandExc u.n 1 1 a

/-- Rank 7, second part: an atomic outside its regions (04 R113), and an access to core control space that is no load or store of 8
aligned bytes (07 R204, 10 R281). -/
def Use.regionFault (s : State) (u : Use) : Option ExcOperand :=
  u.mem.bind fun m =>
    let g := s.region m.addr.toNat
    if m.len = 0 then none
    else
      match m.atomic with
      | some ok => if g ∈ ok then none else some (operandExc u.n 1 3 m.addr)
      | none => if g = .ccs ∧ ¬ (m.load ∧ m.len = 8 ∧ m.addr % 8 = 0) then some (operandExc u.n 1 6 m.addr) else none

/-- Rank 7, third part: window slots (10 R257). -/
def Use.remoteFault (s : State) (c : CoreId) (u : Use) : Option ExcOperand :=
  u.mem.bind fun m => (s.firstUnavailable c m.addr.toNat m.len).map fun a => operandExc u.n 1 4 a

/-- Rank 7, fourth part: an access that the Aisle cannot carry (07 Table 7.1, 17 Table 17.4). -/
def Use.aisleFault (s : State) (c : CoreId) (u : Use) : Option ExcOperand :=
  u.mem.bind fun m =>
    if m.keyed then (s.firstCutOff c m.addr.toNat m.len).map fun a => operandExc u.n 1 5 a else none

/-- A data-address match of a range accessed (10 R282). It is no operand's fault: CAUSE.OPND is 0b11, of which 07 Table 7.1 does not speak
(DESIGN CHOICE, log entry 169). -/
def MemUse.matched (m : MemUse) (k : Core) : Option ExcOperand :=
  if m.keyed && ((m.rd && k.dbgctl.getLsbD 3) || (m.wr && k.dbgctl.getLsbD 4)) then
    ((List.range m.len).find? fun i =>
      ((word (m.addr + i)) ^^^ k.dam) &&& ~~~k.damask == 0).map fun i => operandExc 3 20 2 (m.addr + i)
  else none

/-- A pointer word as a use of its own (03 R75). -/
def Use.pointerUse (u : Use) : Option Use :=
  u.ptr.map fun (cap, a) =>
    { n := u.n, mem := some { cap, addr := a, len := 8, rd := true, wr := false, cls := .bin, plain := false } }

/-- Rank 8: data-address match of an operand's pointer word, then of its range (10 R282). -/
def Use.matchFault (s : State) (c : CoreId) (u : Use) : Option ExcOperand :=
  let k := s.core c
  if k.dbgctl.getLsbD 0 = false ∨ k.depth ≠ 0 then none
  else ((u.pointerUse.bind (·.mem)).bind (·.matched k)) <|> u.mem.bind (·.matched k)

/-- The first fault of a check over the operands in order. -/
def firstFault (f : Use → Option ExcOperand) (us : List Use) : Option ExcOperand := us.findSome? f

/-- A collided word of a range read (10 R266, R268). -/
def Use.collidedFault (s : State) (c : CoreId) (u : Use) : Option ExcOperand :=
  u.mem.bind fun m =>
    if m.rd then (s.firstCollided c m.addr.toNat m.len).map fun a => operandExc u.n 19 1 a else none

/-- The checks of one pointer word, and of its read (03 R75). A collided one ends the instruction here, since no range can be
checked without it (DESIGN CHOICE, log entry 68). -/
def Use.pointerFault (s : State) (c : CoreId) (u : Use) : Option ExcOperand :=
  u.pointerUse.bind fun p =>
    p.validFault <|> p.sealFault <|> p.boundsFault <|> p.permFault <|> p.keyFault s c <|> p.tagFault s c
      <|> p.unmappedFault s <|> p.regionFault s <|> p.remoteFault s c <|> p.aisleFault s c <|> p.collidedFault s c

/-- Step 1 of R45, part by part. -/
def capFault (us : List Use) : Option ExcOperand :=
  firstFault (·.validFault) us <|> firstFault (·.sealFault) us <|> firstFault (·.boundsFault) us
    <|> firstFault (·.permFault) us

/-- Steps 2 to 5 of R45. -/
def State.stepFault (s : State) (c : CoreId) (us : List Use) : Option ExcOperand :=
  firstFault (·.keyFault s c) us <|> firstFault (·.tagFault s c) us <|> firstFault (·.alignFault) us
    <|> firstFault (·.journalFault s c) us

/-- Rank 6: pointer words, then R45 (07 Table 7.2). -/
def State.rank6 (s : State) (c : CoreId) (us : List Use) : Option ExcOperand :=
  firstFault (·.pointerFault s c) us <|> capFault us <|> s.stepFault c us

/-- Rank 7: the MACHINE_CHECKs of checked data accesses (07 Table 7.2). -/
def State.rank7 (s : State) (c : CoreId) (us : List Use) : Option ExcOperand :=
  firstFault (·.unmappedFault s) us <|> firstFault (·.regionFault s) us <|> firstFault (·.remoteFault s c) us
    <|> firstFault (·.aisleFault s c) us

/-- Rank 8: data-address match (07 Table 7.2). -/
def State.rank8 (s : State) (c : CoreId) (us : List Use) : Option ExcOperand := firstFault (·.matchFault s c) us

/-- Ranks 6 to 8 (07 Table 7.2). -/
def State.accessFault (s : State) (c : CoreId) (us : List Use) : Option ExcOperand :=
  s.rank6 c us <|> s.rank7 c us <|> s.rank8 c us

/-- Rank 9: interpreting a marked register (10 R266) or a collided word; a micro-coded instruction that reads one consumes it, moved
or interpreted (10 R268). -/
def State.markFault (s : State) (c : CoreId) (us : List Use) : Option ExcOperand :=
  us.findSome? fun u =>
    (u.regs.findSome? fun (r, cl) =>
      if cl.interprets then ((s.core c).getG r).mark.map fun a => operandExc u.n 19 1 a.toNat else none)
    <|> if u.mem.any fun m => (m.cls != .move && m.cls != .tag) || (s.core c).portMicro then u.collidedFault s c else none

/-- Ranges of memory that an instruction's operands read, pointer words included. -/
def readRanges (us : List Use) : List (Nat × Nat) :=
  us.flatMap fun u =>
    (u.ptr.map fun p => (p.2.toNat, 8)).toList
      ++ (u.mem.bind fun m => if m.rd then some (m.addr.toNat, m.len) else none).toList

/-- Allowed reads ask for REF (11 R309). -/
def State.touchReads (s : State) (c : CoreId) (us : List Use) : State :=
  (readRanges us).foldl (fun s r => s.touch c false r.1 r.2) s

/-- Whether a buffered store covers only a part of a word, or retags one, in the aligned 16 B of a word that a range touches. -/
def Write.partOf (w : Write) (a n : Nat) : Bool :=
  (List.range (wordSpan w.addr w.len)).any fun i =>
    let x := w.addr / 8 + i
    (w.bytes = [] || !coversWord w.addr w.len x) && decide (n ≠ 0 ∧ a / 16 ≤ x / 2 ∧ x / 2 ≤ (a + n - 1) / 16)

/-- How many store-buffer entries, from the oldest on, have to be performed before a range is read, so that all observers see the
writes to one word in one order: those up to the last that covers a word of it only in part (02 R53, log entry 129). -/
def State.drainsFor (s : State) (c : CoreId) (a n : Nat) : Nat :=
  if s.region a ≠ .main then 0
  else
    let b := (s.core c).sbuf
    b.length - (b.reverse.findIdx fun e => e.writes.any (·.partOf a n))

/-- The oldest store-buffer entries performed. -/
def State.drainSome (s : State) (c : CoreId) : Nat → State
  | 0 => s
  | n + 1 => (s.drainOne c).drainSome c n

/-- The state in which an instruction's reads are made: REF asked for, the stores performed that have to be, and the lines read in
the caches (11 R309, 02 R53, 10 Tables 10.6, 10.7). -/
def State.readied (s : State) (c : CoreId) (us : List Use) : State :=
  let s := s.touchReads c us
  let s := s.drainSome c ((readRanges us).foldl (fun m r => max m (s.drainsFor c r.1 r.2)) 0)
  (readRanges us).foldl (fun s r => s.readLines c r.1 r.2) s

/-! ## Values -/

/-- Why an instruction does not complete: an exception, in a state that may hold units already committed; a wait
(`endsGrace` for the waits of 07 R207); or its microcode routine that has only begun, or can not (09 R238, R247). -/
inductive Stop where
  | exc (e : ExcOperand) (s : State)
  | hold (s : State) (endsGrace : Bool)
  | micro (s : State)

/-- A value operand of `n` bytes as read: value, tag and collision mark. -/
structure Val where
  v : Nat
  tag : Tag
  mark : Option Word
  deriving DecidableEq, Repr

/-- The value as a word. -/
def Val.w (x : Val) : Word := BitVec.ofNat 64 x.v

/-- Reads a value operand (04 R104, 03 R78). -/
def State.value (s : State) (c : CoreId) (o : Opd) (n : Nat) : Val :=
  let k := s.core c
  match o.place with
  | .imm v => ⟨v.toNat, Tag.bin, none⟩
  | .reg r =>
    let g := k.getG r
    if n = 16 then
      let h := k.getG (r + 1)
      ⟨g.val.toNat + h.val.toNat * 2 ^ 64, combineTags [g.tag, h.tag], none⟩
    else ⟨g.val.toNat, g.tag, g.mark⟩
  | .mem _ a => ⟨leNat (s.bytesSeen c a.toNat n), combineTags (s.tagsSeen c a.toNat n),
      (s.firstCollided c a.toNat n).map (BitVec.ofNat 64)⟩

/-- Whether port A refuses a write of the word that holds an address: any use by port A refuses a store; a commit of a micro-coded
instruction is presented up to 16 times (10 Table 10.3, R267, R268). -/
def State.refuses (s : State) (c : CoreId) (a : Nat) : Bool :=
  (s.portHit c a).any fun h => h.use != .none && decide (0 < h.times) && (!(s.core c).portMicro || decide (16 ≤ h.times))

/-- The parts of a write that end at aligned words, with the tag of each word; `fuel` bounds the words. -/
def splitWords : Nat → Write → List Write
  | 0, w => [w]
  | fuel + 1, w =>
    let room := 8 - w.addr % 8
    if w.len ≤ room then [w]
    else ⟨w.addr, w.bytes.take room, w.tags.take 1⟩ :: splitWords fuel ⟨w.addr + room, w.bytes.drop room, w.tags.drop 1⟩

/-- A write to the shed window: each word is accepted or refused by itself, but a capability pair whole (10 R256, R267, 02 R53). A
refused word ends the instruction with BANK_COLLISION, and the words accepted stay written. -/
def State.storeWindow (s : State) (c : CoreId) (opnd : Nat) (pair : Bool) (w : Write) : Except Stop State :=
  let parts := if pair then [w] else splitWords (w.len / 8 + 2) w
  let no (p : Write) : Option Nat := ((List.range (wordSpan p.addr p.len)).map fun i => 8 * (p.addr / 8 + i)).find? (s.refuses c)
  let t := parts.foldl (fun t p => if (no p).isSome then t else t.store c p) s
  match parts.findSome? no with
  | some a => .error (.exc (operandExc opnd 19 2 a) t)
  | none => .ok t

/-- Writes bytes to memory for a core: claims the journaled lines first (12 R320, R321), waiting for those it lacks. `pair` marks a
capability pair. -/
def State.writeMem (s : State) (c : CoreId) (opnd : Nat) (w : Write) (pair : Bool := false) : Except Stop State :=
  match s.region w.addr with
  | .window => if (s.core c).ports = [] then .ok (s.store c w) else s.storeWindow c opnd pair w
  | .ccs => .ok (s.modCore c fun k => k.ccsWrite (w.addr - 0x02000000) (BitVec.ofNat 64 (leNat w.bytes)))
  | .main =>
    match s.writingSegment c with
    | none => .ok (s.store c w)
    | some g =>
      match s.unclaimed g.segno w.addr w.len with
      | [] => .ok (s.store c w)
      | ls =>
        match s.requestClaims (ownerOf c) opnd g.segno ls with
        | .error l => .error (.exc (operandExc opnd 21 3 l) (s.rollback g.segno))
        | .ok t => .error (.hold (t.modCore c fun k => { k with wait := some .claim }) false)
  | _ => .ok (s.store c w)

/-- Writes a value of `n` bytes with its tag to a destination; a register also takes the mark of a moved value (10 R265).
A store writes CAPL, CAPH and CODE as BIN (02 Table 2.10). -/
def State.putValue (s : State) (c : CoreId) (o : Opd) (n : Nat) (x : Val) : Except Stop State :=
  match o.place with
  | .imm _ => .ok s
  | .reg r =>
    .ok (s.modCore c fun k =>
      if n = 16 then (k.setG r (BitVec.ofNat 64 x.v) x.tag).setG (r + 1) (BitVec.ofNat 64 (x.v / 2 ^ 64)) x.tag
      else k.setGReg r ⟨x.w, x.tag, x.mark⟩)
  | .mem _ a => s.writeMem c o.n ⟨a.toNat, toLe n x.v, tagsFor a.toNat n (storeTag x.tag)⟩

/-- Writes the cursor updates of the operands (03 R73, 02 R39). -/
def State.updateCursors (s : State) (c : CoreId) (os : List Opd) : State :=
  s.modCore c fun k => os.foldl (fun k o => match o.upd with
    | some (r, v) => k.setC r ((k.getC r).withCursor v)
    | none => k) k

end Sys2Proof.Machine
end

