-- ==== Sys2Proof/Machine/Issue.lean ====
section
/-! DEFINITION. Issuing one instruction: the ranks of 07 Table 7.2 in order, the guard, the delay slot, completion, waiting,
and taking the exception found (03 R67, R68, R83–R92; 07 R190, R198, R199, R207). -/

namespace Sys2Proof.Machine

open Sys2Proof

/-- Where an instruction goes on: the next in sequence; a transfer with its delay slot; or where the body has put PCC
(`RETX`). -/
inductive Flow where
  | seq
  | jump (target : Option Cap) (annul : Bool)
  | returned
  deriving DecidableEq, Repr

/-- An instruction that completes: the state it leaves, where it goes on, and a rank-10 exception (07 Table 7.2). -/
structure Done where
  s : State
  flow : Flow := .seq
  after : Option ExcOperand := none

/-- What an instruction does once every check has passed. -/
abbrev Body := State → Except Stop Done

/-- An exception with no operand at fault. -/
def plainExc (vec code : Nat) (faddr : Int) : ExcOperand := operandExc 3 vec code faddr

/-- Length of the delay-slot instruction, when the instruction stands in a slot. -/
def Core.slotLen (k : Core) (len : Nat) : Nat := if k.delay.isSome then len else 0

/-- Where an event has stopped a core for good, the steward is told when, and which requests had a segment that accepted writes
(17 Table 17.5, 16 R404). -/
def State.noteStop (s : State) (c : CoreId) : State :=
  match (s.core c).run, (s.core c).stop with
  | .fatal _ _, none =>
    s.modCore c fun k => { k with stop := some ⟨s.timer, (s.openSegments c).map fun g => (g.sidx, g.rid)⟩ }
  | _, _ => s

/-- An instruction of `len` bytes takes an exception of ranks 1 to 9: the saved PCC is the instruction (07 Table 7.5). -/
def State.raise (s : State) (c : CoreId) (len : Nat) (e : ExcOperand) : State :=
  (s.modCore c fun k => { k with stepSkip := false }.takeExc e (k.slotLen len)).noteStop c

/-- Rank 1: instruction match or single step (10 R282). -/
def Core.debugFault (k : Core) : Option ExcOperand :=
  if k.dbgctl.getLsbD 0 = false ∨ k.depth ≠ 0 then none
  else if k.dbgctl.getLsbD 2 ∧ k.pcc.cursor = k.iam then some (plainExc 20 1 0)
  else if k.dbgctl.getLsbD 1 ∧ k.stepSkip = false then some (plainExc 20 3 0)
  else none

/-- What a core may hold fetched ahead of the instruction of `len` bytes at PCC: words that it touches, changed in 32 B that it lies in
wholly or partly (03 R93). -/
def Core.aheadOf (k : Core) (len : Nat) : List Ahead :=
  let a := k.pcc.cursor.toNat
  k.ahead.filter fun e =>
    decide (a / 8 ≤ e.word ∧ e.word < a / 8 + wordSpan a len)
      && if e.follows then a == e.start else decide (a < e.start + 32 ∧ e.start < a + len)

/-- The tags with which a core holds a fetched line of main memory: in its L1 I-cache, or in deterministic mode in its block buffer
(10 Table 10.6, 08 R468). -/
def State.fetchedLine (s : State) (c : CoreId) (line : Nat) : Option (List Tag) :=
  if (s.core c).det then (s.core c).block.bind fun b => if b.1 = line then some b.2 else none
  else if (s.core c).l1iOn then (s.l1i.find? fun e => e.1 == c && e.2.1 == line).map (·.2.2)
  else none

/-- The tag that a core has fetched a word with, or the word's own where it holds no line of it (what it holds is never invalidated by
stores of others: 03 R95, R96). -/
def State.codeTag (s : State) (c : CoreId) (i : Nat) : Tag :=
  match (if s.region (8 * i) = .main then s.fetchedLine c (lineId (8 * i)) else none) with
  | some tags => tags.getD (i % 8) Tag.bin
  | none => s.tagSeen c (8 * i)

/-- The tags of a line as a core fetches them now. -/
def State.lineTags (s : State) (c : CoreId) (line : Nat) : List Tag :=
  (List.range 8).map fun i => s.codeTag c (lineAddr line / 8 + i)

/-- A core fetches a byte range: REF is asked for, and in main memory each line goes to its L1 I-cache, or in deterministic mode to its
block buffer, recalled from every L2, unless that holds it (11 R309, 08 R223, R230, R468, 10 Table 10.7). -/
def State.fetchLines (s : State) (c : CoreId) (a n : Nat) : State :=
  let s := s.touch c false a n
  if s.region a = .main then
    (lineIdsOf a n).foldl (fun s l =>
      if (s.core c).det then
        if (s.fetchedLine c l).isSome then s
        else (s.recallLine l).modCore c fun k => { k with block := some (l, s.lineTags c l) }
      else if (s.core c).l1iOn then { s with l1i := lruFill (fun e => (e.1, e.2.1)) (c, l, s.lineTags c l) s.l1i }
      else s) s
  else s

/-- The tag a fetch meets on a word: the old one where the core executes old content (03 R93, R94), else the word's own. -/
def State.fetchTag (s : State) (c : CoreId) (len i : Nat) : Tag :=
  match (s.core c).aheadOf len |>.find? fun e => e.word == i with
  | some e => if e.follows ∨ Config.fetchesOld s.fresh then e.old else s.codeTag c i
  | none => s.codeTag c i

/-- Words whose tags an instruction has changed, of those that an instruction can touch which lies wholly or partly in the 32 B after the
last byte of the one at PCC (03 R93). -/
def State.retagged (before : State) (c : CoreId) (len : Nat) (after : State) : List (Nat × Tag) :=
  let a := (before.core c).pcc.cursor.toNat + len
  let lo := (a - 7) / 8
  ((List.range ((a + 38) / 8 + 1 - lo)).map fun i => lo + i).filterMap fun i =>
    if before.tagSeen c (8 * i) = after.tagSeen c (8 * i) then none else some (i, before.tagSeen c (8 * i))

/-- What the core holds fetched ahead once an instruction is over and the one at `start`, over `span` words, issues next: where words of
that one were written it has their old content, and every later fetch of any word written the new (03 R94). Which bytes of such a word
were written is not told apart (log entry 120). -/
def followed (start span : Nat) (all : List Ahead) : List Ahead :=
  let hit (e : Ahead) : Bool := e.start == start && decide (start / 8 ≤ e.word ∧ e.word < start / 8 + span)
  (if all.any hit then all.filter fun e => e.start != start || hit e else all).map fun e => { e with follows := hit e }

/-- The state after an instruction, with what the core may hold fetched ahead of the changes it made (03 R93, R94). `whole` is true when
the instruction is over, `follows` when the instruction after it then issues next. -/
def State.noteAhead (s : State) (before : State) (c : CoreId) (len : Nat) (whole follows : Bool) : State :=
  let k := before.core c
  let start := k.pcc.cursor.toNat + len
  let new := before.retagged c len s
  if new = [] ∧ k.ahead = [] then s
  else
    let keep := (s.core c).ahead.filter fun e => e.start == start || new.all fun n => n.1 != e.word
    let keep := if whole then keep.filter fun e => !e.follows else keep
    let add := new.filter fun n => keep.all fun e => e.word != n.1
    let all := keep ++ add.map fun n => ⟨n.1, n.2, start, false⟩
    let all := if whole && follows then followed start (wordSpan start (before.lengthAt c start)) all else all
    let used := whole && (k.aheadOf len).any fun e => !e.follows
    { s.modCore c fun q => { q with ahead := all } with fresh := s.fresh + if used then 1 else 0 }

/-- Rank 2: the fetch checks of the instruction's bytes (03 R90, R91). The spec does not rank UNMAPPED and AISLE_ERROR of a fetch: they come
after the key check and before the tag check, since a word that cannot be read has no tag to show (DESIGN CHOICE, log entry 14). -/
def State.fetchFault (s : State) (c : CoreId) (len : Nat) : Option ExcOperand :=
  let p := (s.core c).pcc
  let a := p.cursor.toNat
  let lo := max p.base 0
  let hi := min p.top (2 ^ 64)
  if !p.valid then some (plainExc 6 1 a)
  else if (a : Int) < lo ∨ hi < a + len then some (plainExc 6 3 (if (a : Int) < lo then (a : Int) else max (a : Int) hi))
  else if !p.has .x then some (plainExc 6 4 a)
  else
    let key := if p.has .sys then none
      else (mainPages a len).find? fun g => attrKey (s.pageByte c g) != p.key && attrRlk (s.pageByte c g)
    match key with
    | some g => some (plainExc 7 3 (pageStart a g))
    | none =>
      ((s.firstUnmapped a len).map fun b => plainExc 1 1 b) <|> ((s.firstCutOff c a len).map fun b => plainExc 1 5 b)
      <|> match (List.range (wordSpan a len)).find? fun i => s.fetchTag c len (a / 8 + i) != Tag.code with
        | some i => some (plainExc 5 3 (max a (8 * (a / 8 + i)) : Nat))
        | none =>
          match s.region a with
          | .window | .ccs => some (plainExc 1 2 a)
          | _ => none

/-- PCC moved past an instruction of `len` bytes. -/
def Core.advanced (k : Core) (len : Nat) : Cap := k.pcc.withCursor (k.pcc.cursor.toNat + len)

/-- Whether the instruction stored at an address can be one of a pair, short or long: no member of a group or kind that Table 8.3 keeps out, and
CODE, so that it can stand in the fetch buffer (08 R219, 03 Tables 3.1 to 3.4, 3.9 to 3.14). -/
def State.pairable (s : State) (c : CoreId) (a : Nat) : Bool :=
  let h : BitVec 16 := BitVec.ofNat 16 (leNat (s.bytesSeen c a 2))
  s.codeTag c (a / 8) == Tag.code &&
    match getField h 14 2 with
    | 0 => inRange 0x01 0x15 (getField h 8 6) && !inRange 0x12 0x13 (getField h 8 6)
    | 1 => true
    | 2 => getField h 12 2 != 0
    | _ =>
      let opc := getField h 0 10
      !microCoded opc && (inRange 0x000 0x0FF opc || inRange 0x200 0x27F opc || inRange 0x2C8 0x2CA opc)
        && !([0x018, 0x019, 0x01A, 0x041].contains opc)

/-- An instruction that has completed may be the older of a pair: no younger one, in no delay slot, at least one of the two short, under DIE
and not DET (08 R219). The fetch buffer, the memory operands, the registers and what R217 holds back are not told apart: whether the two
issue as a pair is free (log entry 160). -/
def State.notePair (t before : State) (c : CoreId) (len : Nat) : State :=
  let k := before.core c
  let a := (t.core c).pcc.cursor.toNat
  if k.corecfg.getLsbD 4 && !k.det && k.delay.isNone && !k.midPair && (len == 2 || t.lengthAt c a == 2)
      && before.pairable c k.pcc.cursor.toNat && t.pairable c a then
    { t.modCore c fun q => { q with midPair := Config.issuesPaired t.fresh } with fresh := t.fresh + 1 }
  else t

/-- A target that `RETX` has yet to check (07 R206). -/
def targetCause (p : Cap) : Option Nat :=
  if !p.valid then some 1 else if p.sealed then some 2 else if !p.has .x then some 4 else none

/-- An instruction of `len` bytes completes: PCC moves on, past a delay slot to its target; then a rank-10 exception, or the
fault of a target that `RETX` installs after its re-executed slot, is taken. One that stops the core leaves PCC at the faulting
instruction, which the dump holds (07 R210). -/
def State.complete (s : State) (c : CoreId) (len : Nat) (d : Done) : State :=
  let k := d.s.core c
  let old := (s.core c).delay
  match d.flow with
  | .returned => d.s
  | .jump t annul =>
    d.s.setCore c { (k.setPcc (k.advanced len)) with
      delay := some ⟨t, annul, false, 0⟩, grace := false, midPair := false, stepSkip := false, wait := none, held := none, engine := none }
  | .seq =>
    let next := match old with
      | some dl => dl.target.getD (k.advanced len)
      | none => k.advanced len
    let k := { (k.setPcc next) with
      delay := none, grace := false, midPair := false, stepSkip := false, wait := none, held := none, engine := none }
    let late := match old with
      | some dl => if dl.check then (targetCause next).map fun code => plainExc 6 code next.cursor.toNat else none
      | none => none
    match d.after <|> late with
    | some e =>
      let k := if k.depth.val < 3 then k else k.setPcc (s.core c).pcc
      (d.s.setCore c (k.takeExc e 0)).noteStop c
    | none => (d.s.setCore c k).notePair s c len

/-- An instruction that waits stays where it is and holds the issue of every later one; one in a delay slot is marked as begun
(07 Table 7.3, R207; 08 R216). -/
def State.held (s : State) (c : CoreId) (opc len : Nat) (w : L64) (endsGrace : Bool) : State :=
  s.modCore c fun k => { k with
    held := some ⟨opc, len, w, k.held.bind (·.kept)⟩
    delay := k.delay.map fun d => { d with begun := len }
    midPair := false
    grace := k.grace && !endsGrace }

/-- A core that can issue: running, its shed awake. -/
def State.canIssue (s : State) (c : CoreId) : Bool :=
  (s.core c).run == .running && !s.sheds[shedOf c].retained

/-- Whether an instruction may issue next: none while another that waits, or has committed progress, is not over (08 R216), nor while the
engine stands at a word that raises (09 R245). An instruction is known by its opcode, length and fields. -/
def Core.turn (k : Core) (opc len : Nat) (w : L64) : Bool :=
  !k.raising && match k.held with
    | some h => h.opc == opc && h.len == len && h.w == w
    | none => true

/-- A word of the control store has failed: the instruction is abandoned, issue stops, and the steward is told (09 R247). -/
def State.csStop (s : State) (c : CoreId) (e : Engine) : State :=
  (s.abandonSeal c).modCore c fun k => { k with
    run := .csError e.addr (k.engineGroups e) (malformedAt (k.engineWord e) e.stack.length) s.timer
    wait := none, held := none, engine := none, beginOnly := false
    delay := k.delay.map fun d => { d with begun := 8 }
    csHist := k.csHist ++ [(e.addr, s.timer)] }

/-- The routine of a micro-coded instruction begins (09 R238). -/
def State.beginRoutine (s : State) (c : CoreId) (opc len : Nat) (w : L64) : State :=
  s.modCore c fun k => { k with
    engine := some (Engine.start opc), beginOnly := false
    held := k.held <|> some ⟨opc, len, w, none⟩
    delay := k.delay.map fun d => { d with begun := len } }

/-- Ranks 1 to 4 of an instruction of `len` bytes; `bad` is CAUSE.OPND, the vector and the code of rank 3 or 4. The state has asked for REF
on the fetched pages. -/
def State.earlyFault (s : State) (c : CoreId) (len : Nat) (bad : Option (Nat × Nat × Nat)) : Option ExcOperand :=
  let k := s.core c
  match k.debugFault with
  | some e => some e
  | none =>
    match s.fetchFault c len with
    | some e => some e
    | none => bad.map fun (n, vec, code) => operandExc n vec code k.pcc.cursor.toNat

/-- Rank 9 begins with the fault that a rollback made by another still owes the core (12 R324). -/
def State.owed (s : State) (c : CoreId) (body : Body) : Except Stop Done :=
  match (s.core c).owedFault with
  | some a => .error (.exc (plainExc 21 3 a.toNat) (s.modCore c fun k => { k with owedFault := none }))
  | none => body s

/-- Execution of an instruction whose checks have passed: a micro-coded one through its entry word (09 R238, R247), then marked
registers (10 R266), then its effect. -/
def State.execute (s : State) (c : CoreId) (opc len : Nat) (w : L64) (uses : State → List Use) (body : Body) : Except Stop Done :=
  if (s.core c).entryFails opc then .error (.micro (s.csStop c (Engine.start opc)))
  else if (s.core c).beginOnly then .error (.micro (s.beginRoutine c opc len w))
  else
    match s.markFault c (uses s) with
    | some e => .error (.exc e s)
    | none => body s

/-- The access checks of an instruction (`check`, ranks 6 to 8) and what follows where they find nothing. -/
def State.checked (s : State) (check : State → Option ExcOperand) (next : State → Except Stop Done) : Except Stop Done :=
  match check s with
  | some e => .error (.exc e s)
  | none => next s

/-- An instruction with its checks, ranks 6 to 9: access checks over the operands, the fault that a rollback owes (12 R324), then execution.
One that has waited goes on with the fault that it is owed, then with the access checks once more, since it makes its accesses only now
(02 R44; log entry 131). -/
def State.perform9 (s : State) (c : CoreId) (opc len : Nat) (w : L64) (check : State → Option ExcOperand) (uses : State → List Use)
    (body : Body) : Except Stop Done :=
  let run (s : State) : Except Stop Done := (s.readied c (uses s)).execute c opc len w uses body
  if (s.core c).held.isNone then s.checked check fun s => s.owed c run
  else s.owed c fun s => s.checked check run

/-- The state after an outcome of an instruction. -/
def State.settle (s : State) (c : CoreId) (opc len : Nat) (w : L64) : Except Stop Done → State
  | .ok d => (s.complete c len d).noteAhead s c len true true
  | .error (.exc e s') => (s'.raise c len e).noteAhead s c len true false
  | .error (.hold s' g) => (s'.held c opc len w g).noteAhead s c len false false
  | .error (.micro s') => s'

/-- Issues an instruction of an opcode, `len` bytes and fields `w` on a core. `bad` gives rank 3 or 4 from its encoding, told whether it stands
in a delay slot; `guard` its guard; `check` its access checks; `uses` what its operands make it check; `body` its effect. An annulled slot
only passes (03 R87). A result of the floating-point unit still due lands before the next instruction issues (04 R129). An instruction that
waits has been fetched and decoded (08 R216). -/
def State.issue (s : State) (c : CoreId) (opc len : Nat) (w : L64) (bad : Bool → Option (Nat × Nat × Nat)) (guard : Core → Bool)
    (check : State → Option ExcOperand) (uses : State → List Use) (body : Body) : State :=
  if !s.canIssue c || !(s.core c).turn opc len w then s
  else
    let s := s.modCore c Core.landFp
    let k := s.core c
    if (k.delay.map (·.annul)).getD false then s.complete c len { s }
    else
      let fresh := k.held.isNone
      match (if fresh then s.earlyFault c len (bad k.delay.isSome) else none) with
      | some e => (s.raise c len e).noteAhead s c len true false
      | none =>
        let s := if fresh then s.fetchLines c k.pcc.cursor.toNat len else s
        if guard k then s.settle c opc len w (s.perform9 c opc len w check uses body)
        else s.settle c opc len w (s.owed c fun s => .ok { s })

/-- The guard of an L64 instruction (03 R67). -/
def guardOf (w : L64) (k : Core) : Bool := k.getP w.gp != w.gi

/-- Rank 4 of an L64 instruction with its encoding checks. -/
def Enc.bad (e : Enc) (w : L64) (inSlot : Bool) : Option (Nat × Nat × Nat) := (e.fault w inSlot).map fun (n, code) => (n, 4, code)

/-- Issues an L64 instruction, or an S16 instruction as its L64 counterpart. -/
def State.issueL (s : State) (c : CoreId) (opc len : Nat) (e : Enc) (w : L64) (uses : State → List Use) (body : Body) : State :=
  s.issue c opc len w (e.bad w) (guardOf w) (fun s => s.accessFault c (uses s)) uses body

/-- The specifier of a register in mode 0. -/
def regSpec (r : BitVec 4) : BitVec 16 := r.setWidth 16 <<< 9

/-- An unguarded L64 with three specifiers: the counterpart of an S16 instruction (03 R61). -/
def plainL (sa sb sc : BitVec 16) : L64 := ⟨0, false, sa, sb, sc⟩

/-- Length of an instruction in bytes (03 R59). -/
def formLen : AluForm → Nat
  | .l64 _ => 8
  | .s16 _ _ => 2

/-- The L64 counterpart of an S16 instruction that reads and writes `rd` with `rs` (03 Table 3.2). -/
def formThree : AluForm → L64
  | .l64 w => w
  | .s16 rd rs => plainL (regSpec rd) (regSpec rd) (regSpec rs)

/-- The L64 counterpart of an S16 instruction with A = rd and B = rs (03 Table 3.2). -/
def formTwo : AluForm → L64
  | .l64 w => w
  | .s16 rd rs => plainL (regSpec rd) (regSpec rs) 0

/-- An outcome that continues in sequence. -/
def done (s : State) : Except Stop Done := .ok { s }

end Sys2Proof.Machine
end

