-- ==== Sys2Proof/Machine/Binary.lean ====
section
/-! DEFINITION. The binary group: integer, logical, shift, multiply and divide instructions, loads and narrow stores, and
their S16 forms (03 R61–R66, 04 R98–R111). -/

namespace Sys2Proof.Machine

open Sys2Proof

/-- The outcome of a command: always a next state. -/
abbrev Out := Host.Outcome State Fault Refusal

/-! ## Shared shapes -/

/-- Roles d, v, v of binary-integer operands (03 Table 3.8). -/
def encDVV : Enc := { a := .d, b := .vi, c := .vi }
/-- Roles d, v. -/
def encDV : Enc := { a := .d, b := .vi, c := .unused }
/-- Roles v, v. -/
def encVV : Enc := { a := .vi, b := .vi, c := .unused }
/-- Role d alone. -/
def encD : Enc := { a := .d, b := .unused, c := .unused }
/-- No operand. -/
def encNone : Enc := { a := .unused, b := .unused, c := .unused }

/-- Operand A of 8 B. -/
def opA (s : State) (c : CoreId) (w : L64) : Opd := s.resolve c 0 w.sa 8
/-- Operand B of 8 B. -/
def opB (s : State) (c : CoreId) (w : L64) : Opd := s.resolve c 1 w.sb 8
/-- Operand C of 8 B. -/
def opC (s : State) (c : CoreId) (w : L64) : Opd := s.resolve c 2 w.sc 8

/-- Checks of a binary-integer source. -/
def Opd.source (o : Opd) : Use := o.use true false 8 .bin Tag.bin
/-- Checks of a BIN destination. -/
def Opd.dest (o : Opd) : Use := o.use false true 8 .bin Tag.bin

/-- A value tagged BIN. -/
def binVal (r : Word) : Val := ⟨r.toNat, Tag.bin, none⟩

/-- FLAGS after a result. -/
def State.flagged (s : State) (c : CoreId) (q : Flagged) : State :=
  s.modCore c fun k => { k with flags := setFlags k.flags q }

/-- An execution exception of vectors 9 to 18: opcode and sub-cause (07 R189). CAUSE.OPND is 0b11, that of INTEGER_DIVIDE and DECIMAL_DIVIDE
among them: R188 does not say whether a zero divisor is a faulting operand (DESIGN CHOICE, log entry 132). -/
def opExc (vec opc sub : Nat) (faddr : Int) : ExcOperand := plainExc vec (opc + sub * 1024) faddr

/-- A := f B C with flags; under IOVE a result that overflows raises INTEGER_OVERFLOW with nothing written (04 R100). -/
def aluThree (opc : Nat) (traps : Bool) (f : Core → Word → Word → Flagged) (c : CoreId) (fm : AluForm) (s : State) : Out :=
  let w := formThree fm
  .next (s.issueL c opc (formLen fm) encDVV w
    (fun s => [(opA s c w).dest, (opB s c w).source, (opC s c w).source])
    (fun s => do
      let q := f (s.core c) (s.value c (opB s c w) 8).w (s.value c (opC s c w) 8).w
      if traps && (s.core c).iove && q.v == some true then .error (.exc (opExc 12 opc 0 0) s)
      let t ← s.putValue c (opA s c w) 8 (binVal q.r)
      done ((t.flagged c q).updateCursors c [opA s c w, opB s c w, opC s c w])))

/-- A := f B with flags. -/
def aluTwo (opc : Nat) (traps : Bool) (f : Word → Flagged) (c : CoreId) (fm : AluForm) (s : State) : Out :=
  let w := formTwo fm
  .next (s.issueL c opc (formLen fm) encDV w
    (fun s => [(opA s c w).dest, (opB s c w).source])
    (fun s => do
      let q := f (s.value c (opB s c w) 8).w
      if traps && (s.core c).iove && q.v == some true then .error (.exc (opExc 12 opc 0 0) s)
      let t ← s.putValue c (opA s c w) 8 (binVal q.r)
      done ((t.flagged c q).updateCursors c [opA s c w, opB s c w])))

/-! ## Integer and logical -/

/-- The body of `MOV`: value, tag and collision mark (04 Table 4.1, 10 R265). -/
def moveBody (c : CoreId) (w : L64) : Body := fun s => do
  let t ← s.putValue c (opA s c w) 8 (s.value c (opB s c w) 8)
  done (t.updateCursors c [opA s c w, opB s c w])

/-- What `MOV` checks: the destination takes the source's tag. -/
def moveUses (c : CoreId) (w : L64) (s : State) : List Use :=
  [(opA s c w).use false true 8 .move (storeTag (s.value c (opB s c w) 8).tag), (opB s c w).use true false 8 .move Tag.bin]

/-- `MOV` (04 R98). -/
def execMov (c : CoreId) (f : AluForm) (s : State) : Out :=
  .next (s.issueL c 0x000 (formLen f) encDV (formTwo f) (moveUses c (formTwo f)) (moveBody c (formTwo f)))

/-- `ADD` (04 R98, R99). -/
def execAdd (c : CoreId) (f : AluForm) (s : State) : Out := aluThree 0x001 true (fun _ x y => addFlags x y false) c f s

/-- `SUB` (04 R98, R99). -/
def execSub (c : CoreId) (f : AluForm) (s : State) : Out := aluThree 0x002 true (fun _ x y => subFlags x y false) c f s

/-- `ADC` (04 R98, R99). -/
def execAdc (c : CoreId) (f : AluForm) (s : State) : Out := aluThree 0x003 true (fun k x y => addFlags x y k.flagC) c f s

/-- `SBC` (04 R98, R99). -/
def execSbc (c : CoreId) (f : AluForm) (s : State) : Out := aluThree 0x004 true (fun k x y => subFlags x y k.flagC) c f s

/-- `NEG` (04 R98, R99). -/
def execNeg (c : CoreId) (f : AluForm) (s : State) : Out := aluTwo 0x005 true (fun x => subFlags 0 x false) c f s

/-- `CMP` (04 R98, R100): flags of A − B, never INTEGER_OVERFLOW. -/
def execCmp (c : CoreId) (f : AluForm) (s : State) : Out :=
  let w := formTwo f
  .next (s.issueL c 0x006 (formLen f) encVV w
    (fun s => [(opA s c w).source, (opB s c w).source])
    (fun s =>
      let q := subFlags (s.value c (opA s c w) 8).w (s.value c (opB s c w) 8).w false
      done ((s.flagged c q).updateCursors c [opA s c w, opB s c w])))

/-- `AND` (04 R98). -/
def execAnd (c : CoreId) (f : AluForm) (s : State) : Out := aluThree 0x008 false (fun _ x y => logicFlags (x &&& y)) c f s

/-- `OR` (04 R98). -/
def execOr (c : CoreId) (f : AluForm) (s : State) : Out := aluThree 0x009 false (fun _ x y => logicFlags (x ||| y)) c f s

/-- `XOR` (04 R98). -/
def execXor (c : CoreId) (f : AluForm) (s : State) : Out := aluThree 0x00A false (fun _ x y => logicFlags (x ^^^ y)) c f s

/-- `ANDN` (04 R98). -/
def execAndn (c : CoreId) (f : AluForm) (s : State) : Out :=
  aluThree 0x00B false (fun _ x y => logicFlags (x &&& ~~~y)) c f s

/-- `NOT` (04 R98). -/
def execNot (c : CoreId) (f : AluForm) (s : State) : Out := aluTwo 0x00C false (fun x => logicFlags (~~~x)) c f s

/-- `CLZ` (04 R98). -/
def execClz (c : CoreId) (w : L64) (s : State) : Out :=
  aluTwo 0x00D false (fun x => logicFlags (BitVec.ofNat 64 (leadingZeros x))) c (.l64 w) s

/-- `POPC` (04 R98). -/
def execPopc (c : CoreId) (w : L64) (s : State) : Out :=
  aluTwo 0x00E false (fun x => logicFlags (BitVec.ofNat 64 (oneBits x))) c (.l64 w) s

/-! ## Shifts and rotates -/

/-- `SHL` (04 R101). -/
def execShl (c : CoreId) (f : AluForm) (s : State) : Out := aluThree 0x010 false (fun _ => shlFlags) c f s

/-- `SHRL` (04 R101). -/
def execShrl (c : CoreId) (f : AluForm) (s : State) : Out := aluThree 0x011 false (fun _ => shrlFlags) c f s

/-- `SHRA` (04 R101). -/
def execShra (c : CoreId) (f : AluForm) (s : State) : Out := aluThree 0x012 false (fun _ => shraFlags) c f s

/-- `ROL` (04 R102). -/
def execRol (c : CoreId) (f : AluForm) (s : State) : Out := aluThree 0x013 false (fun _ => rolFlags) c f s

/-- `ROR` (04 R102). -/
def execRor (c : CoreId) (f : AluForm) (s : State) : Out := aluThree 0x014 false (fun _ => rorFlags) c f s

/-! ## Multiplier and divide -/

/-- The body of a multiply: an earlier product lands first (04 R108), and the new one is outstanding. -/
def mulBody (prod : Word → Word → Nat) (c : CoreId) (w : L64) : Body := fun s =>
  let p := prod (s.value c (opA s c w) 8).w (s.value c (opB s c w) 8).w
  done ((s.modCore c fun k => { k.landProduct with
    product := some (BitVec.ofNat 64 (p / 2 ^ 64), BitVec.ofNat 64 p) }).updateCursors c [opA s c w, opB s c w])

/-- `MUL` (04 R106): signed product, mod 2^128. -/
def execMul (c : CoreId) (f : AluForm) (s : State) : Out :=
  let w := formTwo f
  .next (s.issueL c 0x018 (formLen f) encVV w (fun s => [(opA s c w).source, (opB s c w).source])
    (mulBody (fun x y => (BitVec.ofInt 128 (sval x * sval y)).toNat) c w))

/-- `MULW` (04 R106): unsigned product. -/
def execMulw (c : CoreId) (f : AluForm) (s : State) : Out :=
  let w := formTwo f
  .next (s.issueL c 0x019 (formLen f) encVV w (fun s => [(opA s c w).source, (opB s c w).source])
    (mulBody (fun x y => x.toNat * y.toNat) c w))

/-- PRODUCT_WRITTEN (04 R106). -/
def execProductWritten (c : CoreId) (s : State) : Out := .next (s.modCore c Core.landProduct)

/-- `MWAIT` (04 R108). -/
def execMwait (c : CoreId) (f : AluForm) (s : State) : Out :=
  .next (s.issueL c 0x01A (formLen f) encNone (formTwo f) (fun _ => []) (fun s => done (s.modCore c Core.landProduct)))

/-- The body of `MFMH` and `MFML`: an early read sets STATUS.MEARLY (04 R107). -/
def earlyBody (src : Core → Word) (c : CoreId) (w : L64) : Body := fun s => do
  let t ← s.putValue c (opA s c w) 8 (binVal (src (s.core c)))
  let early := (s.core c).product.isSome
  done ((t.modCore c fun k => if early then { k with status := setBit k.status 7 true } else k).updateCursors c [opA s c w])

/-- `MFMH` (04 R107). -/
def execMfmh (c : CoreId) (f : AluForm) (s : State) : Out :=
  let w := formTwo f
  .next (s.issueL c 0x01B (formLen f) encD w (fun s => [(opA s c w).dest]) (earlyBody Core.mh c w))

/-- `MFML` (04 R107). -/
def execMfml (c : CoreId) (f : AluForm) (s : State) : Out :=
  let w := formTwo f
  .next (s.issueL c 0x01C (formLen f) encD w (fun s => [(opA s c w).dest]) (earlyBody Core.ml c w))

/-- The body of a divide: quotient to A, remainder to MH, flags from the quotient; a zero divisor raises INTEGER_DIVIDE
(04 R110, R111). -/
def divBody (opc : Nat) (quo rem : Word → Word → Word) (ovf : Word → Word → Bool) (c : CoreId) (w : L64) : Body := fun s => do
  let s := s.modCore c Core.landProduct
  let x := (s.value c (opB s c w) 8).w
  let y := (s.value c (opC s c w) 8).w
  if y = 0 then .error (.exc (opExc 13 opc 1 0) s)
  if ovf x y && (s.core c).iove then .error (.exc (opExc 12 opc 0 0) s)
  let t ← s.putValue c (opA s c w) 8 (binVal (quo x y))
  done (((t.modCore c fun k => { k with mh := rem x y }).flagged c ⟨quo x y, some (ovf x y), none⟩).updateCursors c
    [opA s c w, opB s c w, opC s c w])

/-- Checks of a divide. -/
def divUses (c : CoreId) (w : L64) (s : State) : List Use := [(opA s c w).dest, (opB s c w).source, (opC s c w).source]

/-- `DIV` (04 R110): truncates toward zero, the remainder with the sign of the dividend. -/
def execDiv (c : CoreId) (w : L64) (s : State) : Out :=
  .next (s.issueL c 0x020 8 encDVV w (divUses c w)
    (divBody 0x020 (fun x y => word ((sval x).tdiv (sval y))) (fun x y => word ((sval x).tmod (sval y)))
      (fun x y => decide (sval x = -2 ^ 63 ∧ sval y = -1)) c w))

/-- `DIVU` (04 R110). -/
def execDivu (c : CoreId) (w : L64) (s : State) : Out :=
  .next (s.issueL c 0x021 8 encDVV w (divUses c w)
    (divBody 0x021 (fun x y => BitVec.ofNat 64 (x.toNat / y.toNat)) (fun x y => BitVec.ofNat 64 (x.toNat % y.toNat))
      (fun _ _ => false) c w))

/-! ## Loads and narrow stores -/

/-- Roles of a load. -/
def encLoad : Enc := { a := .d, b := .m, c := .unused }
/-- Roles of a narrow store. -/
def encStore : Enc := { a := .w, b := .vi, c := .unused }

/-- A load of n bytes (04 R104). -/
def loadN (opc n : Nat) (signed : Bool) (c : CoreId) (w : L64) (s : State) : Out :=
  let src (s : State) := s.resolve c 1 w.sb n
  .next (s.issueL c opc 8 encLoad w
    (fun s => [(opA s c w).use false true 8 .move (storeTag (s.value c (src s) n).tag), (src s).use true false n .move Tag.bin])
    (fun s => do
      let x := s.value c (src s) n
      let v := if signed then (BitVec.ofInt 64 (BitVec.ofNat (8 * n) x.v).toInt).toNat else x.v
      let t ← s.putValue c (opA s c w) 8 { x with v := v }
      done (t.updateCursors c [opA s c w, src s])))

/-- `LDB` (04 R104). -/
def execLdb (c : CoreId) (w : L64) (s : State) : Out := loadN 0x030 1 false c w s
/-- `LDH` (04 R104). -/
def execLdh (c : CoreId) (w : L64) (s : State) : Out := loadN 0x031 2 false c w s
/-- `LDW` (04 R104). -/
def execLdw (c : CoreId) (w : L64) (s : State) : Out := loadN 0x032 4 false c w s
/-- `LDBS` (04 R104). -/
def execLdbs (c : CoreId) (w : L64) (s : State) : Out := loadN 0x033 1 true c w s
/-- `LDHS` (04 R104). -/
def execLdhs (c : CoreId) (w : L64) (s : State) : Out := loadN 0x034 2 true c w s
/-- `LDWS` (04 R104). -/
def execLdws (c : CoreId) (w : L64) (s : State) : Out := loadN 0x035 4 true c w s

/-- A store of the low n bytes with the source's tag (04 R105). -/
def storeL (opc n : Nat) (c : CoreId) (w : L64) (s : State) : State :=
  let dst (s : State) := s.resolve c 0 w.sa n
  (s.issueL c opc 8 encStore w
    (fun s => [(dst s).use false true n .move (storeTag (s.value c (opB s c w) 8).tag), (opB s c w).use true false 8 .move Tag.bin])
    (fun s => do
      let x := s.value c (opB s c w) 8
      let t ← s.putValue c (dst s) n x
      done (t.updateCursors c [dst s, opB s c w])))

/-! ## S16 forms without a row of Table 3.2

They have no L64 opcode; the numbers from 0x400 on that tell them apart here are the model's. -/

/-- Specifier of an S16 memory operand: mode 1 on C(1 + base) with displacement disp7 × 8 (03 R64). -/
def shortSpec (base : BitVec 2) (disp : BitVec 7) : BitVec 16 :=
  0x2000 ||| ((base.setWidth 16 + 1) <<< 9) ||| disp.setWidth 16

/-- Short load or store: `MOV` between a G register and memory (03 R64). -/
def execShortLoadStore (c : CoreId) (store : Bool) (base : BitVec 2) (g : BitVec 4) (disp : BitVec 7) (s : State) : Out :=
  let m := shortSpec base disp
  let w := if store then plainL m (regSpec g) 0 else plainL (regSpec g) m 0
  .next (s.issueL c 0x000 2 encDV w (moveUses c w) (moveBody c w))

/-- `MOVI` (03 Table 3.3). -/
def execMovi (c : CoreId) (rd : BitVec 4) (simm : BitVec 8) (s : State) : Out :=
  .next (s.issueL c 0x400 2 encD (plainL (regSpec rd) 0 0) (fun _ => [])
    (fun s => done (s.modCore c fun k => k.setG rd (simm.signExtend 64) Tag.bin)))

/-- `ADDI`: as `ADD` rd, rd, simm8 (03 Table 3.3). -/
def execAddi (c : CoreId) (rd : BitVec 4) (simm : BitVec 8) (s : State) : Out :=
  let w := plainL (regSpec rd) (regSpec rd) 0
  .next (s.issueL c 0x401 2 encDV w (fun s => [(opA s c w).dest, (opB s c w).source])
    (fun s =>
      let q := addFlags (s.value c (opB s c w) 8).w (simm.signExtend 64) false
      if (s.core c).iove && q.v == some true then .error (.exc (opExc 12 0x001 0 0) s)
      else done ((s.modCore c fun k => k.setG rd q.r Tag.bin).flagged c q)))

/-- Short predicate compare with zero, signed (03 R66, Table 3.3). -/
def execShortPcmp (c : CoreId) (pd : BitVec 3) (cond : BitVec 3) (gs : BitVec 4) (low : BitVec 2) (s : State) : Out :=
  let w := plainL 0 (regSpec gs) 0
  .next (s.issue c 0x402 2 w (fun _ => if 6 ≤ cond.toNat then some (3, 3, 1) else if low ≠ 0 then some (3, 4, 1) else none)
    (fun _ => true) (fun s => s.accessFault c [(opB s c w).source]) (fun s => [(opB s c w).source])
    (fun s => done (s.modCore c fun k => k.setP pd (compareCond cond.toNat (sval (k.getG gs).val) 0))))

/-- An unassigned opcode or S16 operation (03 R62, R82; 07 Table 7.1). -/
def execUnassignedOpcode (c : CoreId) (u : Unassigned) (s : State) : Out :=
  let (len, w, code) := match u with
    | .s16 _ rd rs => (2, plainL (regSpec rd) (regSpec rs) 0, 1)
    | .l64 opc w => (8, w, if opc = 0x3FF then 3 else 2)
  .next (s.issue c 0x404 len w (fun _ => some (3, 3, code)) (fun _ => true) (fun _ => none) (fun _ => []) done)

end Sys2Proof.Machine
end

