-- ==== Sys2Proof/Machine/Atomic.lean ====
section
/-! DEFINITION. The atomics (04 R112–R116, Table 4.4): each waits for every earlier access to be performed (02 R54) and is
performed itself before it completes. -/

namespace Sys2Proof.Machine

open Sys2Proof

/-- Checks of an atomic's target: read and written as a binary integer, in its regions, aligned where its width is 8 B. -/
def Opd.atomic (o : Opd) (len : Nat) (ok : List Region) : Use :=
  (o.use true true len .bin Tag.bin).onMem fun m =>
    { m with atomic := some ok, align := if len = 8 then some (8, 1) else none }

/-- `TAS` and `BTAS` (04 Table 4.4). -/
def testSet (opc : Nat) (ok : List Region) (c : CoreId) (w : L64) (s : State) : Out :=
  let a (s : State) := s.resolve c 0 w.sa 1
  .next (s.issueL c opc 8 { a := .w, b := .p, c := .unused } w
    (fun s => [(a s).atomic 1 ok])
    (fun s => do
      let s := s.drainAll c
      let old := (s.value c (a s) 1).v
      let t ← s.putValue c (a s) 1 ⟨0xFF, Tag.bin, none⟩
      done ((((t.drainAll c).modCore c fun k => k.setP ((specReg w.sb).setWidth 3) (old != 0))).updateCursors c [a s])))

/-- `TAS` (04 R112). -/
def execTas (c : CoreId) (w : L64) (s : State) : Out := testSet 0x2D8 [.own, .window, .main] c w s

/-- `BTAS` (04 R112). -/
def execBtas (c : CoreId) (w : L64) (s : State) : Out := testSet 0x2DD [.own, .window] c w s

/-- `BADD` and `BSWP`: C takes the old word, and the word its new value (04 Table 4.4). -/
def bankAtomic (opc : Nat) (f : Word → Word → Word) (c : CoreId) (w : L64) (s : State) : Out :=
  .next (s.issueL c opc 8 { a := .w, b := .vi, c := .d } w
    (fun s => [(opA s c w).atomic 8 [.own, .window], (opB s c w).source, (opC s c w).dest])
    (fun s => do
      let s := s.drainAll c
      let old := (s.value c (opA s c w) 8).w
      let y := (s.value c (opB s c w) 8).w
      let t ← s.putValue c (opC s c w) 8 (binVal old)
      let t ← t.putValue c (opA s c w) 8 (binVal (f old y))
      done ((t.drainAll c).updateCursors c [opA s c w, opB s c w, opC s c w])))

/-- `BADD` (04 R112). -/
def execBadd (c : CoreId) (w : L64) (s : State) : Out := bankAtomic 0x2DB (fun x y => x + y) c w s

/-- `BSWP` (04 R112). -/
def execBswp (c : CoreId) (w : L64) (s : State) : Out := bankAtomic 0x2DC (fun _ y => y) c w s

/-- `LRSV` (04 R112, R115): loads the word and reserves its granule. -/
def execLrsv (c : CoreId) (w : L64) (s : State) : Out :=
  .next (s.issueL c 0x2D9 8 encLoad w
    (fun s => [(opA s c w).dest,
      ((opB s c w).use true false 8 .bin Tag.bin).onMem fun m => { m with atomic := some [.main], align := some (8, 3) }])
    (fun s => do
      let s := s.drainAll c
      let x := (s.value c (opB s c w) 8).w
      let t ← s.putValue c (opA s c w) 8 (binVal x)
      done ((t.modCore c fun k => { k with resv := some (opB s c w).addr }).updateCursors c [opA s c w, opB s c w])))

/-- Whether `STCN` succeeds: the core holds its reservation on exactly this address (04 R116). -/
def State.reserved (s : State) (c : CoreId) (w : L64) : Bool := (s.core c).resv == some (opA s c w).addr

/-- `STCN` (04 R115, R116): a failure makes no access, and so no key or journal check. -/
def execStcn (c : CoreId) (w : L64) (s : State) : Out :=
  .next (s.issueL c 0x2DA 8 { a := .w, b := .vi, c := .p } w
    (fun s => [((opA s c w).use false true 8 .bin Tag.bin).onMem fun m =>
        { m with atomic := some [.main], align := some (8, 3), keyed := s.reserved c w }, (opB s c w).source])
    (fun s => do
      let ok := s.reserved c w
      let t ← if ok then (s.drainAll c).putValue c (opA s c w) 8 (binVal (s.value c (opB s c w) 8).w) else .ok s
      let t := if ok then t.drainAll c else t
      done ((t.modCore c fun k => { k.setP ((specReg w.sc).setWidth 3) ok with resv := none }).updateCursors c
        [opA s c w, opB s c w])))

end Sys2Proof.Machine
end

