-- ==== Sys2Proof/Machine/Capability.lean ====
section
/-! DEFINITION. The capability and tag group (02 R17, R20, R34, R40, R41, R464–R466, Tables 2.12, 2.13, 2.16; 03 R97). -/

namespace Sys2Proof.Machine

open Sys2Proof

/-! ## Moves -/

/-- A named C register that is not checked (02 R465). -/
def capOf (s : State) (c : CoreId) (sp : BitVec 16) : Cap := (s.core c).getC (specReg sp)

/-- Checks of a C register used as a derivation source or sealing authority (02 R465). -/
def authUse (n : Nat) (k : Cap) (sealedOk : Bool) : Use := { n, auth := some (k, sealedOk) }

/-- Writes a C register. -/
def State.putCap (s : State) (c : CoreId) (sp : BitVec 16) (k : Cap) : State := s.modCore c fun q => q.setC (specReg sp) k

/-- `CLD` (02 R17, Tables 2.8, 2.13). -/
def execCld (c : CoreId) (w : L64) (s : State) : Out :=
  let src (s : State) := s.resolve c 1 w.sb 16
  .next (s.issueL c 0x280 8 { a := .c, b := .m, c := .unused, cdest := true } w
    (fun s => [((src s).use true false 16 .cap Tag.bin).onMem fun m => { m with perms := [.lc], align := some (16, 2) }])
    (fun s =>
      let v := (s.value c (src s) 16).v
      done ((s.putCap c w.sa ⟨BitVec.ofNat 64 v, BitVec.ofNat 64 (v / 2 ^ 64), true⟩).updateCursors c [src s])))

/-- `CST` (02 Tables 2.10, 2.13). -/
def execCst (c : CoreId) (w : L64) (s : State) : Out :=
  let dst (s : State) := s.resolve c 0 w.sa 16
  let tags (k : Cap) : List Tag := if k.valid then [Tag.capl, Tag.caph] else [Tag.bin, Tag.bin]
  .next (s.issueL c 0x281 8 { a := .w, b := .c, c := .unused } w
    (fun s => [((dst s).use false true 16 .move Tag.bin).onMem fun m =>
      { m with perms := [.sc], align := some (16, 2), wtags := tags (capOf s c w.sb) }])
    (fun s => do
      let k := capOf s c w.sb
      let a := match (dst s).place with
        | .mem _ a => a.toNat
        | _ => 0
      let t ← s.writeMem c 0 ⟨a, toLe 8 k.cursor.toNat ++ toLe 8 k.high.toNat, tags k⟩ true
      done (t.updateCursors c [dst s])))

/-- `CMOV` (02 Table 2.16). -/
def execCmov (c : CoreId) (w : L64) (s : State) : Out :=
  .next (s.issueL c 0x282 8 { a := .c, b := .c, c := .unused, cdest := true } w (fun _ => [])
    (fun s => done (s.putCap c w.sa (capOf s c w.sb))))

/-! ## Reads -/

/-- A read of a capability into A, tagged BIN (02 R464). -/
def capRead (opc : Nat) (f : Cap → Word) (c : CoreId) (w : L64) (s : State) (flags : Cap → Core → Core) : Out :=
  .next (s.issueL c opc 8 { a := .d, b := .c, c := .unused } w (fun s => [(opA s c w).dest])
    (fun s => do
      let k := capOf s c w.sb
      let t ← s.putValue c (opA s c w) 8 (binVal (f k))
      done ((t.modCore c (flags k)).updateCursors c [opA s c w])))

/-- `CGETA` (02 R464). -/
def execCgeta (c : CoreId) (w : L64) (s : State) : Out := capRead 0x283 (·.cursor) c w s fun _ k => k
/-- `CGETB` (02 R464). -/
def execCgetb (c : CoreId) (w : L64) (s : State) : Out := capRead 0x284 (fun k => word k.base) c w s fun _ k => k
/-- `CGETT` (02 R464): FLAGS.C tells a top of 2^64. -/
def execCgett (c : CoreId) (w : L64) (s : State) : Out :=
  capRead 0x285 (fun k => word k.top) c w s fun q k => { k with flags := setBit k.flags 3 (decide (q.top = 2 ^ 64)) }
/-- `CGETP` (02 R464). -/
def execCgetp (c : CoreId) (w : L64) (s : State) : Out :=
  capRead 0x286 (fun k => k.high &&& 0xFFFF000000000000) c w s fun _ k => k

/-- `CEQ` (02 R464): all 129 bits. -/
def execCeq (c : CoreId) (w : L64) (s : State) : Out :=
  .next (s.issueL c 0x292 8 { a := .p, b := .c, c := .c } w (fun _ => [])
    (fun s => done (s.modCore c fun k =>
      k.setP ((specReg w.sa).setWidth 3) (capOf s c w.sb == capOf s c w.sc))))

/-! ## Derivations -/

/-- CAPABILITY_FAULT 0x0006 at rank 9 (02 R465). -/
def derivationFault (n : Nat) : ExcOperand := operandExc n 6 6 0

/-- A := a derivation of B by a binary-integer operand C; the derivation may be refused (02 R464, R465). -/
def derive (opc : Nat) (f : Cap → Word → Except (Option Nat) Cap) (c : CoreId) (w : L64) (s : State) : Out :=
  .next (s.issueL c opc 8 { a := .c, b := .c, c := .vi, cdest := true } w
    (fun s => [authUse 1 (capOf s c w.sb) false, (opC s c w).source])
    (fun s =>
      match f (capOf s c w.sb) (s.value c (opC s c w) 8).w with
      | .ok k => done ((s.putCap c w.sa k).updateCursors c [opC s c w])
      | .error (some n) => .error (.exc (derivationFault n) s)
      | .error none => .error (.exc (operandExc 2 4 0xA (s.core c).pcc.cursor.toNat) s)))

/-- `CSETA` (02 R464). -/
def execCseta (c : CoreId) (w : L64) (s : State) : Out := derive 0x287 (fun k v => .ok (k.withCursor v.toNat)) c w s

/-- `CINC` (02 R464). -/
def execCinc (c : CoreId) (w : L64) (s : State) : Out :=
  derive 0x288 (fun k v => .ok (k.withCursor (k.cursor.toNat + sval v))) c w s

/-- `CSETB` and `CSETBX`: bounds from the cursor and a length, rounded out (02 R40, Table 2.12). -/
def setBounds (exact : Bool) (k : Cap) (v : Word) : Except (Option Nat) Cap :=
  let lo : Int := k.cursor.toNat
  let hi : Int := lo + v.toNat
  let e := boundsExp lo hi
  let nb := lo / 2 ^ e * 2 ^ e
  let nt := ceilShift hi e * 2 ^ e
  if k.base ≤ nb ∧ nt ≤ k.top ∧ (exact = false ∨ (nb = lo ∧ nt = hi)) then .ok (k.withBounds e nb nt)
  else .error (some 1)

/-- `CSETB` (02 R40). -/
def execCsetb (c : CoreId) (w : L64) (s : State) : Out := derive 0x289 (setBounds false) c w s
/-- `CSETBX` (02 R40). -/
def execCsetbx (c : CoreId) (w : L64) (s : State) : Out := derive 0x28A (setBounds true) c w s

/-- `CPERM` (02 R464). -/
def execCperm (c : CoreId) (w : L64) (s : State) : Out :=
  derive 0x28C (fun k v => .ok { k with high := k.high &&& (v ||| 0x00FFFFFFFFFFFFFF) }) c w s

/-- `CKEY` (02 R464, Table 2.12). -/
def execCkey (c : CoreId) (w : L64) (s : State) : Out :=
  derive 0x28D (fun k v =>
    if 15 < v.toNat then .error none
    else if k.has .sys then .ok { k with high := setField k.high 52 4 v.toNat } else .error (some 1)) c w s

/-- Result of `CNARROW`: bounds rounded in and the bytes lost; a cursor below the new base is raised to it
(02 R40, Table 2.12). -/
def narrow (k : Cap) (v : Word) : Option (Cap × Word) :=
  let lo : Int := k.cursor.toNat
  let hi : Int := lo + v.toNat
  let e := boundsExp lo hi
  let nb := ceilShift lo e * 2 ^ e
  let nt := hi / 2 ^ e * 2 ^ e
  if k.base ≤ lo ∧ hi ≤ k.top then
    some ({ (k.withBounds e nb nt) with cursor := word (max lo nb) }, word ((hi - lo) - (nt - nb)))
  else none

/-- `CNARROW` (02 R40): C is a G register that gives the length and takes the bytes lost. -/
def execCnarrow (c : CoreId) (w : L64) (s : State) : Out :=
  let g := specReg w.sc
  .next (s.issueL c 0x28B 8 { a := .c, b := .c, c := .g, cdest := true } w
    (fun s => [authUse 1 (capOf s c w.sb) false, { n := 2, regs := [(g, .bin)] }])
    (fun s =>
      match narrow (capOf s c w.sb) ((s.core c).getG g).val with
      | some (k, lost) => done ((s.putCap c w.sa k).modCore c fun q => q.setG g lost Tag.bin)
      | none => .error (.exc (derivationFault 1) s)))

/-- Whether a sealing capability has SEAL and its cursor within its bounds (02 Table 2.12). -/
def Cap.mayUnseal (k : Cap) : Bool := k.has .seal && decide (k.base ≤ k.cursor.toNat ∧ (k.cursor.toNat : Int) < k.top)

/-- `CSEAL` (02 R40, R41, Table 2.12). -/
def execCseal (c : CoreId) (w : L64) (s : State) : Out :=
  .next (s.issueL c 0x28E 8 { a := .c, b := .c, c := .c, cdest := true } w
    (fun s => [authUse 1 (capOf s c w.sb) false, authUse 2 (capOf s c w.sc) false])
    (fun s =>
      let q := capOf s c w.sc
      let n := q.cursor.toNat
      if q.mayUnseal && decide (1 ≤ n ∧ n ≤ 15) then
        let k := capOf s c w.sb
        done (s.putCap c w.sa { k with high := setField k.high 48 4 n })
      else .error (.exc (derivationFault 2) s)))

/-- `CUNSEAL` (02 R40, R41, Table 2.12). -/
def execCunseal (c : CoreId) (w : L64) (s : State) : Out :=
  .next (s.issueL c 0x28F 8 { a := .c, b := .c, c := .c, cdest := true } w
    (fun s => [authUse 1 (capOf s c w.sb) true, authUse 2 (capOf s c w.sc) false])
    (fun s =>
      let k := capOf s c w.sb
      let q := capOf s c w.sc
      if q.mayUnseal && q.cursor.toNat == k.otype.toNat then
        done (s.putCap c w.sa { k with high := setField k.high 48 4 0 })
      else .error (.exc (derivationFault 2) s)))

/-! ## Special capabilities -/

/-- `CMFS` (02 R20). -/
def execCmfs (c : CoreId) (w : L64) (s : State) : Out :=
  let n := specNum w.sb
  .next (s.issueL c 0x290 8 { a := .c, b := .i, c := .unused, cdest := true
                              range := fun _ => if n = 11 ∨ n = 12 ∨ n = 19 then none else some (1, 6) } w (fun _ => [])
    (fun s =>
      let k := s.core c
      done (s.putCap c w.sa (if n = 11 then k.hpcc else if n = 12 then k.hdcc else k.pcc))))

/-- `CMTS` (02 R20, R21). -/
def execCmts (c : CoreId) (w : L64) (s : State) : Out :=
  let n := specNum w.sa
  let e : Enc := { a := .i, b := .c, c := .unused, range := fun _ => if n = 11 ∨ n = 12 then none else some (0, 6) }
  .next (s.issue c 0x291 8 w (e.bad w) (guardOf w) (fun s => if (s.core c).sys then none else some (plainExc 6 5 0)) (fun _ => [])
    (fun s => done (s.modCore c fun k =>
      if n = 11 then { k with hpcc := capOf s c w.sb } else { k with hdcc := capOf s c w.sb })))

/-! ## Tags -/

/-- `TAGGET` (02 R466). -/
def execTagget (c : CoreId) (w : L64) (s : State) : Out :=
  .next (s.issueL c 0x298 8 { a := .d, b := .m, c := .unused } w
    (fun s => [(opA s c w).dest, ((opB s c w).use true false 8 .tag Tag.bin).onMem fun m => { m with align := some (8, 4), plain := false }])
    (fun s => do
      let a := match (opB s c w).place with
        | .mem _ a => a.toNat
        | _ => 0
      let t ← s.putValue c (opA s c w) 8 (binVal ((s.tagSeen c a).setWidth 64))
      done (t.updateCursors c [opA s c w, opB s c w])))

/-- Retags every word that a range touches; the other word of a retagged word's aligned 16 B becomes BIN when it carries a
capability tag (02 R34, 03 R97). Tags written to core control space are discarded (02 R51). -/
def State.retag (s : State) (c : CoreId) (a n : Nat) (t : Tag) : Except Stop State :=
  if s.region a = .ccs then .ok s else s.writeMem c 0 ⟨a / 8 * 8, [], List.replicate (wordSpan a n) t⟩

/-- `TAGSET` (02 R34). -/
def execTagset (c : CoreId) (w : L64) (s : State) : Out :=
  let n := specNum w.sb
  let ok := decide ((0 ≤ n ∧ n ≤ 5) ∨ n = 14 ∨ n = 15)
  let t : Tag := BitVec.ofInt 4 n
  .next (s.issueL c 0x299 8 { a := .w, b := .i, c := .unused, range := fun _ => if ok then none else some (1, 0xA) } w
    (fun s => [((opA s c w).use false true 8 .move t).onMem fun m => { m with align := some (8, 4), plain := false }])
    (fun s => do
      let a := match (opA s c w).place with
        | .mem _ a => a.toNat
        | _ => 0
      let u ← s.retag c a 8 t
      done (u.updateCursors c [opA s c w])))

/-- The range of a `TAGCODE`: W and X of its base (02 Table 2.13). -/
def tagcodeUse (s : State) (c : CoreId) (w : L64) (len : Nat) : Use :=
  ((s.resolve c 0 w.sa 1).use false true len .move Tag.code).onMem fun m => { m with perms := [.x], plain := false }

/-- The checks of `TAGCODE` in the order of 03 R97: B, its length, SYS in C15, the whole range of A, then ranks 7 and 8. -/
def tagcodeCheck (c : CoreId) (w : L64) (s : State) : Option ExcOperand :=
  let b := (opB s c w).source
  let len := (s.value c (opB s c w) 8).w.toNat
  let a := tagcodeUse s c w (min len 4097)
  firstFault (·.pointerFault s c) [a, b] <|> capFault [b] <|> s.stepFault c [b] <|> s.rank7 c [b]
    <|> (if len = 0 ∨ 4096 < len then some (operandExc 1 4 0xA (s.core c).pcc.cursor.toNat) else none)
    <|> (if (s.core c).sys then none else some (plainExc 6 5 0))
    <|> capFault [a] <|> s.stepFault c [a] <|> s.rank7 c [a] <|> s.rank8 c [a, b]

/-- `TAGCODE` (03 R97). -/
def execTagcode (c : CoreId) (w : L64) (s : State) : Out :=
  let e : Enc := { a := .w, b := .vi, c := .unused }
  .next (s.issue c 0x29A 8 w (e.bad w) (guardOf w) (tagcodeCheck c w) (fun s => [(opB s c w).source])
    (fun s => do
      let len := (s.value c (opB s c w) 8).w.toNat
      let o := s.resolve c 0 w.sa 1
      let a := match o.place with
        | .mem _ a => a.toNat
        | _ => 0
      let t ← s.retag c a len Tag.code
      done (t.updateCursors c [o, opB s c w])))

end Sys2Proof.Machine
end

