-- ==== Sys2Proof/Machine/Crypto.lean ====
section
/-! DEFINITION. The standard functions that the checks of containers and images name: SHA-384 (FIPS 180-4), HMAC and HKDF over it
(FIPS 198-1, RFC 5869), AES-256-GCM (FIPS 197, SP 800-38D) and ECDSA over P-384 (FIPS 186-5) (09 R252, 14 Table 14.9). The spec names
them and gives none of their constants, which are those of the standards (PRESUMED, log entry 149). -/

namespace Sys2Proof.Machine

open Sys2Proof

/-! ## Bytes -/

/-- Number that bytes spell, the first the most significant. -/
def beNat (b : List Byte) : Nat := b.foldl (fun t x => t * 256 + x.toNat) 0

/-- The n bytes of a number, the most significant first. -/
def toBe (n v : Nat) : List Byte := (List.range n).map fun i => BitVec.ofNat 8 (v / 256 ^ (n - 1 - i))

/-- Bytes cut into blocks of n; `fuel` bounds them. -/
def blocksOf (n : Nat) : Nat → List Byte → List (List Byte)
  | 0, _ => []
  | fuel + 1, b => if b.isEmpty then [] else b.take n :: blocksOf n fuel (b.drop n)

/-- The exclusive or of two byte strings, as long as the shorter. -/
def xorBytes (a b : List Byte) : List Byte := a.zipWith (· ^^^ ·) b

/-! ## SHA-384 -/

/-- The largest r below 2^72 with r^k at most n. -/
def rootOf (k n : Nat) : Nat :=
  (List.range 72).foldl (fun r i => if (r + 2 ^ (71 - i)) ^ k ≤ n then r + 2 ^ (71 - i) else r) 0

/-- The first primes, in order. -/
def firstPrimes : List Nat :=
  (List.range 410).filter fun n => decide (2 ≤ n) && (List.range n).all fun d => decide (d < 2) || n % d != 0

/-- Round constants: the first 64 bits of the fractions of the cube roots of the first 80 primes. -/
def shaK : List Word := firstPrimes.map fun p => BitVec.ofNat 64 (rootOf 3 (p * 2 ^ 192))

/-- Initial hash value of SHA-384: the same of the square roots of the 9th to 16th prime. -/
def shaInit : List Word := ((firstPrimes.drop 8).take 8).map fun p => BitVec.ofNat 64 (rootOf 2 (p * 2 ^ 128))

/-- The four functions of FIPS 180-4 on one word, by their rotations; `shift` makes the third a shift. -/
def shaSigma (a b c : Nat) (shift : Bool) (x : Word) : Word :=
  x.rotateRight a ^^^ x.rotateRight b ^^^ (if shift then x >>> c else x.rotateRight c)

/-- The message schedule of a block: 80 words. -/
def shaSchedule (block : List Byte) : List Word :=
  let w := (List.range 16).map fun i => BitVec.ofNat 64 (beNat ((block.drop (8 * i)).take 8))
  (List.range 64).foldl (fun (w : List Word) i =>
    w ++ [shaSigma 19 61 6 true (w.getD (i + 14) 0) + w.getD (i + 9) 0 + shaSigma 1 8 7 true (w.getD (i + 1) 0) + w.getD i 0]) w

/-- One round over the eight working words. -/
def shaRound (v : List Word) (kw : Word) : List Word :=
  let x (i : Nat) : Word := v.getD i 0
  let t1 := x 7 + shaSigma 14 18 41 false (x 4) + ((x 4 &&& x 5) ^^^ (~~~(x 4) &&& x 6)) + kw
  let t2 := shaSigma 28 34 39 false (x 0) + ((x 0 &&& x 1) ^^^ (x 0 &&& x 2) ^^^ (x 1 &&& x 2))
  [t1 + t2, x 0, x 1, x 2, x 3 + t1, x 4, x 5, x 6]

/-- The hash value after one block. -/
def shaBlock (k : List Word) (h : List Word) (block : List Byte) : List Word :=
  h.zipWith (· + ·) ((k.zipWith (· + ·) (shaSchedule block)).foldl shaRound h)

/-- SHA-384 of a byte string: 48 bytes. -/
def sha384 (m : List Byte) : List Byte :=
  let padded := m ++ [0x80] ++ List.replicate ((239 - m.length % 128) % 128) 0 ++ toBe 16 (8 * m.length)
  (((blocksOf 128 padded.length padded).foldl (shaBlock shaK) shaInit).flatMap fun w => toBe 8 w.toNat).take 48

/-- HMAC with SHA-384. -/
def hmac384 (key m : List Byte) : List Byte :=
  let k := if key.length ≤ 128 then key else sha384 key
  let k := k ++ List.replicate (128 - k.length) 0
  sha384 (k.map (· ^^^ 0x5C) ++ sha384 (k.map (· ^^^ 0x36) ++ m))

/-- HKDF with SHA-384, up to 48 bytes. -/
def hkdf384 (ikm salt info : List Byte) (n : Nat) : List Byte := (hmac384 (hmac384 salt ikm) (info ++ [1])).take n

/-! ## AES-256-GCM -/

/-- Multiplication by x in the field of AES. -/
def xtime (a : Byte) : Byte := (a <<< 1) ^^^ (if a.getLsbD 7 then 0x1B else 0)

/-- Product in the field of AES. -/
def gfMul (a b : Byte) : Byte :=
  ((List.range 8).foldl (fun (t : Byte × Byte) i => (if b.getLsbD i then t.1 ^^^ t.2 else t.1, xtime t.2)) (0, a)).1

/-- The S-box: the inverse, then the affine map. -/
def sbox (a : Byte) : Byte :=
  let inv := (List.range 254).foldl (fun t _ => gfMul t a) 1
  inv ^^^ inv.rotateLeft 1 ^^^ inv.rotateLeft 2 ^^^ inv.rotateLeft 3 ^^^ inv.rotateLeft 4 ^^^ 0x63

/-- The S-box as a table, so that one cipher looks it up. -/
def sboxTable : List Byte := (List.range 256).map fun i => sbox (BitVec.ofNat 8 i)

/-- The S-box of a byte, from the table. -/
def subByte (t : List Byte) (a : Byte) : Byte := t.getD a.toNat 0

/-- The key schedule of AES-256: 60 words of 4 bytes. -/
def aesKeys (t key : List Byte) : List (List Byte) :=
  let w := (List.range 8).map fun i => (key.drop (4 * i)).take 4
  ((List.range 52).foldl (fun (r : List (List Byte) × Byte) j =>
    let i := j + 8
    let last := r.1.getD (i - 1) []
    let temp :=
      if i % 8 = 0 then xorBytes ((last.drop 1 ++ last.take 1).map (subByte t)) [r.2, 0, 0, 0]
      else if i % 8 = 4 then last.map (subByte t)
      else last
    (r.1 ++ [xorBytes (r.1.getD (i - 8) []) temp], if i % 8 = 0 then xtime r.2 else r.2)) (w, 1)).1

/-- Bytes and rows shifted: byte i of the state is row i mod 4 of column i / 4. -/
def subShift (t st : List Byte) : List Byte :=
  (List.range 16).map fun i => subByte t (st.getD (4 * ((i / 4 + i % 4) % 4) + i % 4) 0)

/-- The columns of a state mixed. -/
def mixColumns (st : List Byte) : List Byte :=
  (List.range 16).map fun i =>
    let b (k : Nat) : Byte := st.getD (i / 4 * 4 + (i + k) % 4) 0
    xtime (b 0) ^^^ xtime (b 1) ^^^ b 1 ^^^ b 2 ^^^ b 3

/-- AES-256 of one block under a key schedule. -/
def aesBlock (t : List Byte) (ks : List (List Byte)) (block : List Byte) : List Byte :=
  let key (r : Nat) : List Byte := ((ks.drop (4 * r)).take 4).flatten
  let st := (List.range 13).foldl (fun st r => xorBytes (mixColumns (subShift t st)) (key (r + 1))) (xorBytes block (key 0))
  xorBytes (subShift t st) (key 14)

/-- Product in the field of GHASH; the first bit of a block is its most significant. -/
def ghashMul (x y : BitVec 128) : BitVec 128 :=
  ((List.range 128).foldl (fun (t : BitVec 128 × BitVec 128) i =>
    (if x.getMsbD i then t.1 ^^^ t.2 else t.1,
      if t.2.getLsbD 0 then (t.2 >>> 1) ^^^ (0xE1#128 <<< 120) else t.2 >>> 1)) (0, y)).1

/-- GHASH of a byte string; a last short block is filled with zeros. -/
def ghash (h : BitVec 128) (b : List Byte) : BitVec 128 :=
  (blocksOf 16 b.length b).foldl (fun y x => ghashMul (y ^^^ BitVec.ofNat 128 (beNat (x ++ List.replicate (16 - x.length) 0))) h) 0

/-- Bytes filled with zeros to whole blocks. -/
def wholeBlocks (b : List Byte) : List Byte := b ++ List.replicate ((16 - b.length % 16) % 16) 0

/-- AES-256-GCM decryption with a 96-bit IV: the plaintext where the tag holds. -/
def gcmDecrypt (key iv aad cipher tag : List Byte) : Option (List Byte) :=
  let t := sboxTable
  let ks := aesKeys t key
  let enc (n : Nat) : List Byte := aesBlock t ks (iv ++ toBe 4 n)
  let h := BitVec.ofNat 128 (beNat (aesBlock t ks (List.replicate 16 0)))
  let s := ghash h (wholeBlocks aad ++ wholeBlocks cipher ++ toBe 8 (8 * aad.length) ++ toBe 8 (8 * cipher.length))
  if xorBytes (toBe 16 s.toNat) (enc 1) = tag then
    some (((blocksOf 16 cipher.length cipher).mapIdx fun i b => xorBytes b (enc (i + 2))).flatten)
  else none

/-! ## ECDSA over P-384 -/

/-- The prime of P-384. -/
def p384 : Nat := 2 ^ 384 - 2 ^ 128 - 2 ^ 96 + 2 ^ 32 - 1
/-- The order of its base point. -/
def n384 : Nat := 0xFFFFFFFFFFFFFFFFFFFFFFFFFFFFFFFFFFFFFFFFFFFFFFFFC7634D81F4372DDF581A0DB248B0A77AECEC196ACCC52973
/-- The coefficient b; the coefficient a is -3. -/
def b384 : Nat := 0xB3312FA7E23EE7E4988E056BE3F82D19181D9C6EFE8141120314088F5013875AC656398D8A2ED19D2A85C8EDD3EC2AEF
/-- The base point. -/
def g384 : Nat × Nat :=
  (0xAA87CA22BE8B05378EB1C71EF320AD746E1D3B628BA79B9859F741E082542A385502F25DBF55296C3A545E3872760AB7,
   0x3617DE4A96262C6F5D9E98BF9292DC29F8F41DBD289A147CE9DA3113B5F0B8C00A60B1CE1D7E819D7A431D7C90EA0E5F)

/-- a to the power e mod m, for e below 2^384. -/
def powMod (m a e : Nat) : Nat :=
  ((List.range 384).foldl (fun (t : Nat × Nat) i => (if e.testBit i then t.1 * t.2 % m else t.1, t.2 * t.2 % m)) (1, a)).1

/-- Sum of two points of the curve; `none` is the point at infinity. -/
def ecAdd (p q : Option (Nat × Nat)) : Option (Nat × Nat) :=
  match p, q with
  | none, _ => q
  | _, none => p
  | some (x1, y1), some (x2, y2) =>
    if x1 = x2 ∧ (y1 + y2) % p384 = 0 then none
    else
      let slope :=
        if x1 = x2 then (3 * x1 * x1 + p384 - 3) * powMod p384 (2 * y1) (p384 - 2) % p384
        else (y2 + p384 - y1) * powMod p384 (x2 + p384 - x1) (p384 - 2) % p384
      let x3 := (slope * slope + 2 * p384 - x1 - x2) % p384
      some (x3, (slope * (x1 + p384 - x3) + p384 - y1) % p384)

/-- A multiple of a point. -/
def ecMul (k : Nat) (p : Nat × Nat) : Option (Nat × Nat) :=
  ((List.range 384).foldl (fun (t : Option (Nat × Nat) × Option (Nat × Nat)) i =>
    (if k.testBit i then ecAdd t.1 t.2 else t.1, ecAdd t.2 t.2)) (none, some p)).1

/-- Whether coordinates are those of a point of the curve. -/
def onCurve (x y : Nat) : Bool :=
  decide (x < p384) && decide (y < p384) && (y * y % p384 == (x * x * x + (p384 - 3) * x + b384) % p384)

/-- Whether a signature, r then s, verifies over a message under a public key, X then Y, with SHA-384. -/
def ecdsa384 (pubkey sig m : List Byte) : Bool :=
  let x := beNat (pubkey.take 48)
  let y := beNat ((pubkey.drop 48).take 48)
  let r := beNat (sig.take 48)
  let s := beNat ((sig.drop 48).take 48)
  if onCurve x y && decide (1 ≤ r ∧ r < n384) && decide (1 ≤ s ∧ s < n384) then
    let w := powMod n384 s (n384 - 2)
    match ecAdd (ecMul (beNat (sha384 m) * w % n384) g384) (ecMul (r * w % n384) (x, y)) with
    | none => false
    | some (v, _) => v % n384 == r
  else false

end Sys2Proof.Machine
end

