-- ==== Sys2Proof/Machine/Engine.lean ====
section
/-! DEFINITION. The microcode engine and the control stores: parity and form of a microword, its next address, what it stages, the
RESUME that a commit composes, and the words of a core's control store against the merged image (09 R237–R250, R254). The base
microcode itself is the boot image's: the effect of a routine is that of its instruction's own chapter (log entry 134). -/

namespace Sys2Proof.Machine

open Sys2Proof

/-! ## The merged image -/

/-- A microword of the merged image in steward memory (09 R254). -/
def State.microword (s : State) (a : BitVec 13) : BitVec 128 :=
  ((s.steward.replaced.find? (·.1 == a.toNat)).map (·.2)).getD (Config.microcode a)

/-- The merged image with parity, as a control store holds it (09 R254). -/
def State.imageCs (s : State) : List (Nat × BitVec 136) := s.steward.replaced.map fun e => (e.1, withParity e.2)

/-- The merged image written into a control store, with the bits that do not take (09 R254, R255). -/
def Core.loadCs (k : Core) (image : List (Nat × BitVec 136)) (flips : List (BitVec 13 × BitVec 136)) : Core :=
  { k with cs := some image }.flipCs flips

/-- Whether some words of a control store read back as the merged image has them. -/
def State.readsBack (s : State) (c : CoreId) (words : List (BitVec 13)) : Bool :=
  words.all fun a => (s.core c).csWord a == withParity (s.microword a)

/-- The first of some words of a control store that does not read back as the merged image has it. -/
def State.badWord (s : State) (c : CoreId) (words : List (BitVec 13)) : Option (BitVec 13) :=
  words.find? fun a => (s.core c).csWord a != withParity (s.microword a)

/-- A control store loaded and compared, and loaded again where it differs; the bits that do not take each time are given, and
no other word can differ (09 R254). -/
def State.loadTwice (s : State) (c : CoreId) (first second : List (BitVec 13 × BitVec 136)) : State :=
  let t := s.modCore c fun k => k.loadCs s.imageCs first
  if t.readsBack c (first.map (·.1)) then t else s.modCore c fun k => k.loadCs s.imageCs second

/-- The aligned 64-word block that holds a word written from the merged image, with the bits that do not take; flips outside the block
have no meaning (09 R248). -/
def State.reloadBlock (s : State) (c : CoreId) (a : BitVec 13) (flips : List (BitVec 6 × BitVec 136)) : State :=
  let at_ (i : Nat) : BitVec 13 := BitVec.ofNat 13 (a.toNat / 64 * 64 + i)
  s.modCore c fun k =>
    ((List.range 64).foldl (fun k i => k.putCs (at_ i) (withParity (s.microword (at_ i)))) k).flipCs
      (flips.map fun f => (at_ f.1.toNat, f.2))

/-- The words of the aligned 64-word block that holds a word. -/
def blockOf (a : BitVec 13) : List (BitVec 13) := (List.range 64).map fun i => BitVec.ofNat 13 (a.toNat / 64 * 64 + i)

/-! ## The engine -/

/-- The address after a word with what SEQ does to the return stack and the loop counter (09 Table 9.3, R241). -/
def Engine.sequence (e : Engine) (w : BitVec 128) (x : MicroStep) : Engine :=
  let next := e.addr + 1
  let dst : BitVec 13 := w.extractLsb' 115 13
  match seqCode w with
  | 0 => { e with addr := next }
  | 1 => { e with addr := dst }
  | 2 => { e with addr := if x.cond then dst else next }
  | 3 => { e with addr := (dst.extractLsb' 4 9 ++ x.key : BitVec 13) }
  | 4 => { e with addr := dst, stack := next :: e.stack }
  | 5 => { e with addr := e.stack.headD 0, stack := e.stack.tail }
  | 6 => { e with counter := e.counter - 1, addr := if e.counter - 1 = 0 then next else dst }
  | _ => e

/-- What a word loads and stages before it goes on (09 Table 9.2, after Table 9.3): the loop counter from LIT or from a result, a
micro-temporary, the work buffer, or the commit buffer of stream A or B. -/
def Engine.stage (e : Engine) (w : BitVec 128) (x : MicroStep) : Engine :=
  let e := if litField w ≠ 0 ∧ seqCode w = 0 then { e with counter := BitVec.ofNat 16 (litField w) } else e
  match x.result with
  | none => e
  | some r =>
    let i : BitVec 4 := w.extractLsb' 74 4
    match getField w 78 2 with
    | 2 => if i = 0xF then { e with counter := r.setWidth 16 } else { e with temps := (i, r) :: e.temps.filter (·.1 != i) }
    | 3 => { e with work := (i, r) :: e.work.filter (·.1 != i) }
    | n => { e with staged := (n == 1, i, r) :: e.staged.filter fun y => !(y.1 == (n == 1) && y.2.1 == i) }

/-- Opcode and fields of the L64 instruction stored at PCC, if it is one (03 R59, Table 3.4). -/
def State.storedL64 (s : State) (c : CoreId) : Option (BitVec 10 × L64) :=
  let a := (s.core c).pcc.cursor.toNat
  let bs := s.bytesSeen c a 8
  let half (i : Nat) : BitVec 16 := BitVec.ofNat 16 (leNat (slice bs (2 * i) 2))
  if s.lengthAt c a = 8 then some ((half 0).extractLsb' 0 10, ⟨(half 0).extractLsb' 11 3, (half 0).getLsbD 10, half 1, half 2, half 3⟩)
  else none

/-- Whether an interrupt can abandon what the engine runs: in a wait where Table 9.4 says so, else at a word that commits nothing, since a
commit is made first (09 R242, R246). -/
def Core.abandonable (k : Core) : Bool :=
  match k.engine with
  | some e =>
    let w := k.engineWord e
    if waitCode w = 0 then commitCode w == 0 else !holdsRecognition (waitCode w)
  | none => true

end Sys2Proof.Machine
end

