-- ==== Sys2Proof/Machine/Container.lean ====
section
/-! DEFINITION. The patch containers and what the steward checks of them (09 R251 to R253). -/

namespace Sys2Proof.Machine

open Sys2Proof

/-- A container as flash holds it: its bytes (09 Table 9.6). -/
abbrev Container := List Byte

/-- NWORDS of a container. -/
def Container_nwords (c : Container) : Nat := fieldLe c 0x12 2

/-- PAYLEN of a container. -/
def Container_paylen (c : Container) : Nat := fieldLe c 0x14 4

/-- PUBKEY of a container. -/
def Container_pubkey (c : Container) : List Byte := slice c 0x60 96

/-- Check 1 of a container (09 R252); it is as long as Table 9.6 has it. -/
def Container_form (c : Container) : Bool :=
  slice c 0 4 == [0x55, 0x43, 0x50, 0x54] && fieldLe c 4 2 == 1 && fieldLe c 6 2 == 0x100
    && fieldLe c 0x11 1 == 0 && allZero (slice c 0x18 8) && allZero (slice c 0x4C 4)
    && allZero (slice c 0xC0 64) && inRange 1 1024 (Container_nwords c)
    && Container_paylen c == 18 * Container_nwords c && c.length == 0x100 + Container_paylen c + 96

/-- Check 2 of a container. -/
def Container_keyOk (c : Container) : Bool := sha384 (Container_pubkey c) == Config.keyHash

/-- Check 3 of a container. -/
def Container_sigOk (c : Container) : Bool :=
  let n := 0x100 + Container_paylen c
  ecdsa384 (Container_pubkey c) (slice c n 96) (c.take n)

/-- The bytes of the info string "L96 UCPATCH 1". -/
def patchInfo : List Byte := [0x4C, 0x39, 0x36, 0x20, 0x55, 0x43, 0x50, 0x41, 0x54, 0x43, 0x48, 0x20, 0x31]

/-- Check 6 of a container: the decrypted entries, where the tag holds. -/
def Container_plain (c : Container) : Option (List Byte) :=
  gcmDecrypt (hkdf384 Config.deviceKey (slice c 0x20 32) patchInfo 32) (slice c 0x40 12) (c.take 0x20)
    (slice c 0x100 (Container_paylen c)) (slice c 0x50 16)

/-- The entries of a container: word address and microword. -/
def Container_entries (c : Container) : List (Nat × BitVec 128) :=
  let plain := (Container_plain c).getD []
  (List.range (Container_nwords c)).map fun i => (fieldLe plain (18 * i) 2, BitVec.ofNat 128 (fieldLe plain (18 * i + 2) 16))

/-- Whether entry addresses ascend strictly. -/
def ascending : List Nat → Bool
  | a :: b :: t => decide (a < b) && ascending (b :: t)
  | _ => true

/-- Check 7 of a container. -/
def Container_wordsOk (c : Container) : Bool :=
  let es := Container_entries c
  ascending (es.map (·.1)) && es.all fun e => (inRange 0x400 0x1FFF e.1 || microCoded e.1) && !malformedWord e.2

/-- RBLEVEL. -/
def Container_level (c : Container) : Nat := fieldLe c 0x10 1

/-- Whether a container passes checks 1 to 3. -/
def Container_signed (c : Container) : Bool := Container_form c && Container_keyOk c && Container_sigOk c

/-- The first check of 09 R252 that a container fails, 0 for none. -/
def Container_failed (c : Container) (fuseLevel : Nat) : Nat :=
  if !Container_form c then 1
  else if !Container_keyOk c then 2
  else if !Container_sigOk c then 3
  else if Container_level c < fuseLevel then 4
  else if fieldLe c 8 4 ≠ Config.ucVersion.toNat then 5
  else if (Container_plain c).isNone then 6
  else if !Container_wordsOk c then 7
  else 0

/-- PATCHVER. -/
def Container_version (c : Container) : Nat := fieldLe c 0x0C 4

/-- A numbered container put in its place by rising PATCHVER. -/
def placeContainer (x : Nat × Container) : List (Nat × Container) → List (Nat × Container)
  | [] => [x]
  | y :: t => if Container_version x.2 < Container_version y.2 then x :: y :: t else y :: placeContainer x t

/-- Rejects a container (17 Table 17.6 class 0x31). -/
def State.rejectPatch (s : State) (i check : Nat) : State := s.log 0x31 0 i check 0 0

/-- Accepted containers applied in order (09 R253); `full` once one has been rejected for the number of words. -/
def State.applyPatches (s : State) (full : Bool) : List (Nat × Container) → State
  | [] => s
  | (i, c) :: t =>
    let words := (Container_entries c).foldl (fun m e => Sparse.insert (Sparse.erase m e.1) e.1 e.2) s.steward.replaced
    if full || decide (1024 < words.length) then (s.rejectPatch i 0).applyPatches true t
    else
      { s with steward := { s.steward with
        replaced := words, patches := s.steward.patches.set i (BitVec.ofNat 32 (Container_version c)) } }.applyPatches full t

/-- The patch containers checked and applied (09 R252, R253). Two of one PATCHVER are both rejected. -/
def State.checkPatches (s : State) (cs : List Container) : State :=
  let all := cs.mapIdx fun i c => (i, c)
  let failed (x : Nat × Container) : Nat := Container_failed x.2 s.steward.fuseLevel
  let good := all.filter (failed · = 0)
  let twin (x : Nat × Container) : Bool := good.any fun y => y.1 != x.1 && Container_version y.2 == Container_version x.2
  let s := { s with steward := { s.steward with patches := [0, 0, 0, 0], replaced := [] } }
  let s := all.foldl (fun s x =>
    if failed x ≠ 0 then s.rejectPatch x.1 (failed x) else if twin x then s.rejectPatch x.1 0 else s) s
  s.applyPatches false ((good.filter fun x => !twin x).foldr placeContainer [])

end Sys2Proof.Machine
end

