-- ==== Sys2Proof/Machine/ConfigSpace.lean ====
section
/-! DEFINITION. PCIe configuration space (13 R340, R341, Tables 13.1, 13.2). The table gives each structure's offset and what it holds; the
registers within a structure, their bits and reset values are those of the PCIe Base Specification (PRESUMED, log entry 141). -/

namespace Sys2Proof.Machine

open Sys2Proof

/-- The head of an extended capability: ID, version 1 and the next offset. -/
def extCap (id next : Nat) : BitVec 32 := BitVec.ofNat 32 (id + 2 ^ 16 + next * 2 ^ 20)

/-- What the dwords of configuration space hold after reset, read-only fields with them (13 Table 13.2). -/
def configReset (off : Nat) : BitVec 32 :=
  match off with
  | 0x00 => (0x0960 : BitVec 16) ++ Config.vendorId
  | 0x04 => 0x00100000
  | 0x08 => (0x120000 : BitVec 24) ++ Config.revisionId
  | 0x10 => 0x4
  | 0x18 => 0x4
  | 0x2C => Config.subsystemId ++ Config.vendorId
  | 0x34 => 0x40
  | 0x40 => 0x00035001
  | 0x44 => 0x8
  | 0x50 => 0x003F7011
  | 0x54 => 0xC000
  | 0x58 => 0xD000
  | 0x70 => 0x00020010
  | 0x74 => 0x10008022
  | 0x78 => 0x2000
  | 0x7C => 0x00420905
  | 0x80 => Config.linkStatus ++ (0 : BitVec 16)
  | 0x94 => 0x00030010
  | 0x9C => 0x3E
  | 0xA0 => 0x5
  | 0x100 => extCap 0x0001 0x148 + 0x10000
  | 0x108 => 0x00400000
  | 0x10C => 0x00462030
  | 0x114 => 0x00006000
  | 0x118 => 0xA0
  | 0x148 => extCap 0x0003 0x158
  | 0x14C => Config.serial.setWidth 32
  | 0x150 => Config.serial.extractLsb' 32 32
  | 0x158 => extCap 0x0019 0x188
  | 0x188 => extCap 0x0025 0x198
  | 0x18C => 0x80000001
  | 0x198 => extCap 0x0026 0x1C8
  | 0x1C8 => extCap 0x0027 0x210
  | 0x210 => extCap 0x002A 0
  | _ => 0

/-- Bits of a dword that are RW: command, BARs, cache line size and interrupt line; MSI-X enable and function mask; device, link and device
2 control; the AER masks, severities and the two ECRC enables. -/
def configRw (off : Nat) : BitVec 32 :=
  match off with
  | 0x04 => 0x0546
  | 0x0C => 0xFF
  | 0x10 => 0xFFFF0000
  | 0x14 => 0xFFFFFFFF
  | 0x18 => 0xFF000000
  | 0x1C => 0xFFFFFFFF
  | 0x3C => 0xFF
  | 0x50 => 0xC0000000
  | 0x78 => 0x71EF
  | 0x80 => 0xCA
  | 0x98 => 0x1010
  | 0xA0 => 0xF
  | 0x108 => 0x07FFF030
  | 0x10C => 0x07FFF030
  | 0x114 => 0xF1C1
  | 0x118 => 0x140
  | _ => 0

/-- Bits of a dword that are W1C: the AER statuses. -/
def configW1c (off : Nat) : BitVec 32 :=
  match off with
  | 0x104 => 0x07FFF030
  | 0x110 => 0xF1C1
  | _ => 0

/-- A dword of configuration space at an aligned offset, as the host reads it. Bits [1:0] of PMCSR are the power state. -/
def State.configRead (s : State) (off : Nat) : BitVec 32 :=
  let v := Sparse.get (configReset off) s.config off
  if off = 0x44 ∧ s.d3hot then v ||| 3 else v

/-- Serves the writable bits of a dword: `lanes` marks the bytes that are written. -/
def configMerge (off : Nat) (old lanes x : BitVec 32) : BitVec 32 :=
  let rw := configRw off &&& lanes
  ((old &&& ~~~rw) ||| (x &&& rw)) &&& ~~~(configW1c off &&& lanes &&& x)

/-- A configuration write of 1, 2 or 4 bytes within a dword, but for the effects of the power state and of an FLR. -/
def State.configWrite (s : State) (off width : Nat) (v : Word) : State :=
  let d := off / 4 * 4
  let lanes := BitVec.ofNat 32 ((2 ^ (8 * width) - 1) * 2 ^ (8 * (off % 4)))
  let x := BitVec.ofNat 32 (v.toNat * 2 ^ (8 * (off % 4)))
  let old := Sparse.get (configReset d) s.config d
  { s with
    config := Sparse.set (configReset d) s.config d (configMerge d old lanes x)
    d3hot := if d = 0x44 ∧ lanes.getLsbD 0 then
        (if x.extractLsb' 0 2 = 3#2 then true else if x.extractLsb' 0 2 = 0#2 then false else s.d3hot)
      else s.d3hot }

/-- Whether an MSI-X message of a vector may be sent: MSI-X enabled, and neither the function nor the vector masked (13 R345). -/
def State.msixOpen (s : State) (v : Fin 64) : Bool :=
  (s.configRead 0x50).extractLsb' 30 2 == 2#2 && !s.msix[v].masked

/-- Sends an MSI-X message, or leaves it pending while its vector is masked (13 R345). -/
def State.sendMsix (s : State) (v : Fin 64) : State :=
  if s.msixOpen v then s.emit (.msix v) else { s with msix := s.msix.set v { s.msix[v] with pending := true } }

/-- The pending messages that nothing masks any more are sent, in vector order; none after a fatal stop (17 R424). -/
def State.sendPending (s : State) : State :=
  if s.steward.fatal then s else
  (List.finRange 64).foldl (fun s v =>
    if s.msix[v].pending && s.msixOpen v then
      { s with msix := s.msix.set v { s.msix[v] with pending := false } }.emit (.msix v)
    else s) s

/-- What an FLR leaves of configuration space: the AER registers, which are sticky, the link's control, and the payload size. -/
def State.configFlr (s : State) : List (Nat × BitVec 32) :=
  let kept := s.config.filter fun e => e.1 == 0x80 || decide (0x100 ≤ e.1 ∧ e.1 < 0x148)
  let mps := ((Sparse.get (configReset 0x78) s.config 0x78) &&& 0xE0) ||| (configReset 0x78 &&& ~~~0xE0)
  Sparse.set (configReset 0x78) kept 0x78 mps

end Sys2Proof.Machine
end

