-- ==== Sys2Proof/Machine/Control.lean ====
section
/-! DEFINITION. The control group: branches and jumps with their delay slots and links, the return from an exception, traps,
predicate instructions, and the fetch and memory fences (03 R84–R95, 04 R463, 07 R205–R208, 08 R222, R227). -/

namespace Sys2Proof.Machine

open Sys2Proof

/-! ## Branches -/

/-- A resolved branch moves its counter one step and saturates (08 R222). -/
def Core.train (k : Core) (taken : Bool) : Core :=
  let i := getField k.pcc.cursor 1 10
  let old := Sparse.get (1 : BitVec 2) k.predictor i
  let new : BitVec 2 := if taken then (if old = 3 then 3 else old + 1) else (if old = 0 then 0 else old - 1)
  { k with predictor := Sparse.set 1 k.predictor i new }

/-- PCC with its cursor at a target, bit 0 taken as zero (03 R60). R89 leaves the bounds of a target to its fetch and does not say what a
target outside PCC's window is: PCC becomes invalid there, as R39 has it for a C register, and the fetch raises CAPABILITY_FAULT with
cause 0x0001 (DESIGN CHOICE, log entry 130). -/
def Core.target (k : Core) (a : Int) : Cap := k.pcc.withCursor (a / 2 * 2)

/-- The link of a `BRL` or `JMPL` of 8 B: PCC at the address after the delay slot (03 R85). -/
def State.link (s : State) (c : CoreId) : Cap :=
  let p := (s.core c).pcc
  let a := p.cursor.toNat + 8
  p.withCursor (a + s.lengthAt c a : Nat)

/-- Annul bit and the zero bits of SC (03 Table 3.7). -/
def annulBit (w : L64) : Bool := w.sc.getLsbD 15
/-- Bits [14:0] of SC are zero. -/
def branchZero (w : L64) : Bool := getField w.sc 0 15 == 0

/-- Displacement of an L64 branch in halfwords (03 Table 3.7). -/
def branchDisp (w : L64) : Int := (w.sa ++ w.sb : BitVec 32).toInt

/-- Encoding of `BR` and `BRL`. -/
def encBranch : Enc := { a := .raw, b := .raw, c := .raw, zero := branchZero, transfer := true }

/-- `BR` and `BRL`: the guard decides whether the branch is taken (03 R84, R85, R88). -/
def branchL (opc : Nat) (linked : Bool) (c : CoreId) (w : L64) (s : State) : State :=
  s.issue c opc 8 w (encBranch.bad w) (fun _ => true) (fun _ => none) (fun _ => [])
    (fun s =>
      let k := s.core c
      let taken := guardOf w k
      let t := k.target (k.pcc.cursor.toNat + branchDisp w * 2)
      let s := s.modCore c fun k => k.train taken
      let s := if taken && linked then s.modCore c fun k => k.setC 14 (s.link c) else s
      .ok { s, flow := .jump (if taken then some t else none) (!taken && annulBit w) })

/-- `BR` (03 R84). -/
def execBr (c : CoreId) (w : L64) (s : State) : Out := .next (branchL 0x2C0 false c w s)

/-- `BRL` (03 R85). -/
def execBrl (c : CoreId) (w : L64) (s : State) : Out := .next (branchL 0x2C1 true c w s)

/-- The jump's target checks: validity, sealing, X (03 R89). -/
def jumpFault (t : Cap) : Option ExcOperand :=
  (targetCause t).map fun code => operandExc 0 6 code t.cursor.toNat

/-- `JMP` and `JMPL` (03 R85, R89); `link` is the register written when taken. -/
def jumpL (opc : Nat) (e : Enc) (link : Option (BitVec 4)) (c : CoreId) (w : L64) (s : State) : State :=
  s.issue c opc 8 w (e.bad w) (fun _ => true)
    (fun s => if guardOf w (s.core c) then jumpFault ((s.core c).getC (specReg w.sa)) else none) (fun _ => [])
    (fun s =>
      let k := s.core c
      let taken := guardOf w k
      let t := (k.getC (specReg w.sa)).even
      let s := match link with
        | some r => if taken then s.modCore c fun k => k.setC r (s.link c) else s
        | none => s
      .ok { s, flow := .jump (if taken then some t else none) (!taken && annulBit w) })

/-- `JMP` (03 R89). -/
def execJmp (c : CoreId) (w : L64) (s : State) : Out :=
  .next (jumpL 0x2C2 { a := .c, b := .unused, c := .raw, zero := branchZero, transfer := true } none c w s)

/-- `JMPL` (03 R85, R89). -/
def execJmpl (c : CoreId) (w : L64) (s : State) : Out :=
  .next (jumpL 0x2C3 { a := .c, b := .c, c := .raw, zero := branchZero, transfer := true } (some (specReg w.sb)) c w s)

/-- The S16 branch: taken when P[p] XOR invert is 1; its slot always executes (03 R65, Table 3.3). -/
def execShortBranch (c : CoreId) (invert : Bool) (p : BitVec 3) (simm : BitVec 8) (s : State) : Out :=
  .next (s.issue c 0x403 2 (plainL 0 0 0) (fun slot => if slot then some (3, 4, 5) else none) (fun _ => true) (fun _ => none) (fun _ => [])
    (fun s =>
      let k := s.core c
      let taken := k.getP p != invert
      let t := k.target (k.pcc.cursor.toNat + simm.toInt * 2)
      .ok { s := s.modCore c fun k => k.train taken, flow := .jump (if taken then some t else none) false }))

/-! ## Return and traps -/

/-- Where `RETX` continues at depth d (07 R205, R208): S_PCC, advanced by SKIP; or S_TPCC when SKIP stands with BDS. -/
def Shadow.target (h : Shadow) : Cap :=
  if h.skip = 0 then h.pcc
  else if h.status.getLsbD 6 then h.tpcc
  else h.pcc.withCursor (h.pcc.cursor.toNat + (if h.skip = 1 then 2 else 8))

/-- The restore of `RETX` from depth d to depth d − 1 (07 R205, R207, R208; 10 R282). -/
def Core.restore (k : Core) (d : Fin 4) (d' : Fin 4) : Core :=
  let h := k.shadows[d]
  let b := k.banks[d']
  { k with
    status := setBit h.status 6 false
    resume := if h.skip = 0 then h.resume else 0
    cause := h.cause
    faddr := h.faddr
    mh := h.mh
    ml := h.ml
    product := none
    banks := k.banks.set d' { b with p := h.pred, pcc := h.target.even }
    shadows := k.shadows.set d { h with skip := 0 }
    depth := d'
    delay := if h.skip = 0 ∧ h.status.getLsbD 6 then some ⟨some h.tpcc.even, false, true, 0⟩ else none
    grace := true
    midPair := false
    stepSkip := decide (d' = 0)
    wait := none
    held := none
    engine := none }

/-- `RETX` (07 R205–R208): its checks are execution faults of rank 9, taken at its own depth. -/
def execRetx (c : CoreId) (w : L64) (s : State) : Out :=
  .next (s.issueL c 0x2C4 8 { a := .unused, b := .unused, c := .unused, transfer := true } w (fun _ => [])
    (fun s =>
      let k := s.core c
      let h := k.shadows[k.depth]
      if k.depth = 0 ∨ h.skip = 3 then .error (.exc (plainExc 4 0xB k.pcc.cursor.toNat) s)
      else
        match targetCause h.target.even with
        | some code => .error (.exc (plainExc 6 code h.target.cursor.toNat) s)
        | none => .ok { s := s.modCore c fun k => k.restore k.depth (k.depth - 1), flow := .returned }))

/-- `TRAP` n: completes, then enters vector 32 + n (07 R188, Table 7.2 rank 10). -/
def execTrap (c : CoreId) (w : L64) (s : State) : Out :=
  let n := specNum w.sa
  .next (s.issueL c 0x2C5 8 { a := .i, b := .unused, c := .unused, transfer := true
                              range := fun _ => if 0 ≤ n ∧ n ≤ 31 then none else some (0, 0xA) } w (fun _ => [])
    (fun s => .ok { s, after := some (plainExc (32 + n.toNat) 0 0) }))

/-! ## Predicates -/

/-- `PCMP` (04 R463). -/
def execPcmp (c : CoreId) (w : L64) (s : State) : Out :=
  let f := specImm w.sa
  .next (s.issueL c 0x2C8 8 { a := .pf, b := .vi, c := .vi, zero := fun _ => f / 16 == 0, zeroIn := 0
                              range := fun _ => if 6 ≤ f % 8 then some (0, 0xA) else none } w
    (fun s => [(opB s c w).source, (opC s c w).source])
    (fun s =>
      let x := (s.value c (opB s c w) 8).w
      let y := (s.value c (opC s c w) 8).w
      let r := if f.testBit 3 then compareCond (f % 8) x.toNat y.toNat else compareCond (f % 8) (sval x) (sval y)
      done ((s.modCore c fun k => k.setP ((specReg w.sa).setWidth 3) r).updateCursors c [opB s c w, opC s c w])))

/-- `PLOG` (04 R463). -/
def execPlog (c : CoreId) (w : L64) (s : State) : Out :=
  let f := specImm w.sa
  .next (s.issueL c 0x2C9 8 { a := .pf, b := .p, c := .p, zero := fun _ => f / 16 == 0, zeroIn := 0 } w (fun _ => [])
    (fun s => done (s.modCore c fun k =>
      let i := (if k.getP ((specReg w.sb).setWidth 3) then 2 else 0) + (if k.getP ((specReg w.sc).setWidth 3) then 1 else 0)
      k.setP ((specReg w.sa).setWidth 3) (f.testBit i))))

/-- `PFLG` (04 R463, Table 4.12). -/
def execPflg (c : CoreId) (w : L64) (s : State) : Out :=
  let f := specImm w.sa
  .next (s.issueL c 0x2CA 8 { a := .pf, b := .unused, c := .unused, zero := fun _ => f / 32 == 0, zeroIn := 0 } w (fun _ => [])
    (fun s => done (s.modCore c fun k =>
      k.setP ((specReg w.sa).setWidth 3) (flagCond k.flags (f % 16) != f.testBit 4))))

/-! ## Fences -/

/-- `IFLUSH` (03 R95, 08 R222): nothing fetched ahead and no L1 I-cache line remains; every branch counter goes back to 0b01. -/
def execIflush (c : CoreId) (w : L64) (s : State) : Out :=
  .next (s.issueL c 0x2D0 8 encNone w (fun _ => [])
    (fun s => done (({ s with l1i := s.l1i.filter (·.1 != c) } : State).modCore c fun k =>
      { k with predictor := [], ahead := [], block := none })))

/-- `FENCE` (08 R227). -/
def execFence (c : CoreId) (w : L64) (s : State) : Out :=
  .next (s.issueL c 0x2D1 8 encNone w (fun _ => []) (fun s => done (s.drainAll c)))

/-- `NOP` (03 R81). -/
def execNop (c : CoreId) (w : L64) (s : State) : Out := .next (s.issueL c 0x2F8 8 encNone w (fun _ => []) done)

end Sys2Proof.Machine
end

