-- ==== Sys2Proof/Machine/Ring.lean ====
section
/-! DEFINITION. The journal rings, the sealed record, its outcome, and fencing (11 R286, 12 R327–R335, 15 R392, R393). -/

namespace Sys2Proof.Machine

open Sys2Proof

/-! ## Lines of a yard and of its ring -/

/-- Address of the 256 B line n of a yard (11 R285). -/
def yardLineAddr (y : Yard) (n : Nat) : Nat :=
  let a := mainBase + 512 * n
  if yardOf a = y then a else a + 256

/-- A yard's own write within one of its lines; to a lost line it is discarded and reported once (11 R294, R301). -/
def State.yardWrite (s : State) (w : Write) : State :=
  if s.lostAt w.addr then s.discard none w.addr else s.perform none w

/-- Capacity of a ring in 256 B lines. -/
def State.ringCap (s : State) : Nat := s.ringBytes / 256

/-- Address of ring line k of a yard: its lines of the journal region in ascending order, taken as a circle (11 R286; each
512 B block holds one line of each yard, R285). -/
def State.ringAddr (s : State) (y : Yard) (k : Nat) : Nat :=
  let a := s.journalBase + 512 * (k % s.ringCap)
  if yardOf a = y then a else a + 256

/-- Writes whole lines into a ring from line position `pos` on; `fuel` bounds the lines. -/
def State.ringWrite (s : State) (y : Yard) (pos : Nat) (bytes : List Byte) : Nat → State
  | 0 => s
  | fuel + 1 =>
    if bytes = [] then s
    else
      State.ringWrite (s.yardWrite ⟨s.ringAddr y pos, bytes.take 256, List.replicate 32 Tag.bin⟩) y (pos + 1)
        (bytes.drop 256) fuel

/-- Bytes of `n` ring lines from line position `pos` on. -/
def State.ringRead (s : State) (y : Yard) (pos n : Nat) : List Byte :=
  (List.range n).flatMap fun i =>
    let a := s.ringAddr y (pos + i)
    (List.range 256).map fun j => s.mainByte (a + j)

/-! ## Space -/

/-- Free bytes of a ring: its size less the occupied records and the outstanding reservations (12 R333). -/
def State.ringFree (s : State) (y : Yard) : Nat :=
  let r := (s.yard y).ring
  s.ringBytes - 256 * (r.lines - r.tail) - r.reserved

/-- A record the journal stream has to deliver (12 R338, R339): one of this module's own, sealed since the stream started. -/
def StreamDesc.covers (d : StreamDesc) (e : RingRec) : Bool := d.state == 1 && e.mine && decide (d.first ≤ e.rseq)

/-- Whether a record has its outcome: acknowledged, or the stream fenced or the record refused first. -/
def RingRec.settled (e : RingRec) : Bool := e.acked || e.locally

/-- Whether a record is reclaimable (12 R333). -/
def RingRec.reclaimable (d : StreamDesc) (e : RingRec) : Bool :=
  e.settled && (!d.covers e || e.streamEnd.any (decide <| · ≤ d.cons))

/-- The tail past every reclaimable record there (12 R333); records written over are forgotten. -/
def Ring.advance (d : StreamDesc) (cap : Nat) (r : Ring) : Ring :=
  { r with
    tail := r.recs.foldl (fun t e => if e.pos = t ∧ e.reclaimable d then t + e.nlines else t) r.tail
    recs := r.recs.filter fun e => decide (r.lines < e.pos + e.nlines + cap) }

/-- Advances the tail of a yard's ring. -/
def State.advanceRing (s : State) (y : Yard) : State :=
  s.modYard y fun k => { k with ring := k.ring.advance k.stream s.ringCap }

/-! ## Outcomes and fences -/

/-- The requests changed where they are the one named. -/
def State.modRequest (s : State) (sidx : BitVec 16) (rid : Word) (f : Request → Request) : State :=
  { s with requests := s.requests.map fun r => if r.is sidx rid then f r else r }

/-- Whether a core, or the steward, still holds a segment, so that a `SEAL` is to learn its outcome. -/
def State.heldByCore (s : State) (g : Segment) : Bool :=
  match coreOfNum g.core.toNat with
  | some c => (s.core c).jopen && (s.core c).segno.toNat == g.segno
  | none => s.steward.own.jopen && s.steward.own.segno.toNat == g.segno

/-- A record of this module gets its outcome, once: mirrored, or sealed locally only (12 R316, 13 R347, 15 R392). -/
def State.settleRec (s : State) (y : Yard) (rseq : Nat) (mirrored : Bool) : State :=
  match (s.yard y).ring.recs.find? fun e => e.mine && e.rseq == rseq && !e.settled with
  | none => s
  | some e =>
    let mark (x : RingRec) : RingRec :=
      if x.mine && x.rseq == rseq then (if mirrored then { x with acked := true } else { x with locally := true }) else x
    let s := s.modYard y fun k => { k with ring := { k.ring with recs := k.ring.recs.map mark } }
    let s := s.modSegment e.segno fun g => { g with outcome := some mirrored }
    let s := s.modRequest e.sidx e.rid fun r =>
      if mirrored then { r with acked := r.acked + 1 } else { r with local_ := r.local_ + 1 }
    let s := { s with segments := s.segments.filter fun g =>
      !(g.segno == e.segno && g.state == SegState.handed && !s.heldByCore g) }
    s.advanceRing y

/-- Records of this module in a ring without an outcome, oldest first. -/
def State.unsettled (s : State) (y : Yard) : List RingRec :=
  (s.yard y).ring.recs.filter fun e => e.mine && !e.settled

/-- The mirror stream of a yard. -/
def State.stream (s : State) : Yard → MirrorStream
  | .a => s.streamA
  | .b => s.streamB

/-- The module with one mirror stream changed. -/
def State.modStream (s : State) (y : Yard) (f : MirrorStream → MirrorStream) : State :=
  match y with
  | .a => { s with streamA := f s.streamA }
  | .b => { s with streamB := f s.streamB }

/-- Fences a stream (15 R393): every record without an outcome is sealed locally only; logged STREAM_FENCED. -/
def State.fence (s : State) (y : Yard) (reason : Nat) : State :=
  if (s.stream y).fenced then s
  else
    let open_ := s.unsettled y
    let oldest := (open_.head?.map (·.rseq)).getD (s.yard y).ring.nextRseq
    let s := s.modStream y fun m => { m with fenced := true }
    let s := s.log 0x21 2 (yardNum y) 0 reason (BitVec.ofNat 64 oldest)
    open_.foldl (fun s e => s.settleRec y e.rseq false) s

/-! ## Reserving -/

/-- RSEQ of the first record that the stream of a ring has not copied. -/
def State.firstUnstreamed (s : State) (y : Yard) : Nat :=
  let k := s.yard y
  ((k.ring.recs.find? fun e => k.stream.covers e && e.streamEnd.isNone).map (·.rseq)).getD k.ring.nextRseq

/-- R334 step 1: the ring's journal stream ends in state LOST (12 R338). -/
def State.loseStream (s : State) (y : Yard) : State :=
  if (s.yard y).stream.state = 1 then
    let n := s.firstUnstreamed y
    ((s.modYard y fun k => { k with stream := { k.stream with state := 2 } }).log 0x14 2 (yardNum y) 0 0
      (BitVec.ofNat 64 n)).advanceRing y
  else s

/-- Makes room for a reservation as far as needed, and reserves (12 R334). -/
def State.reserve (s : State) (y : Yard) : State :=
  let s := if s.ringFree y < reservation then s.loseStream y else s
  let s := if s.ringFree y < reservation then (s.fence y 4).advanceRing y else s
  s.modYard y fun k => { k with ring := { k.ring with reserved := k.ring.reserved + reservation } }

/-! ## The record -/

/-- One redo record of a claimed line as stored (12 Table 12.3). -/
def State.redo (s : State) (u : Claim) : List Byte :=
  let now := s.undoOf u.segno u.line
  let tags := (List.range 8).foldl (fun t w => t + (now.undoTags.getD w 0).toNat * 2 ^ (4 * w)) 0
  let mask := (List.range 8).foldl (fun t w =>
    if slice now.undo (8 * w) 8 = slice u.undo (8 * w) 8 ∧ now.undoTags.getD w 0 = u.undoTags.getD w 0 then t
    else t + 2 ^ w) 0
  toLe 8 u.line ++ toLe 4 tags ++ toLe 1 mask ++ toLe 3 0 ++ now.undo

/-- RECLEN of a record of n redo records (12 R328, R331). -/
def recLen (n : Nat) : Nat := (64 + 80 * n + 64 + 255) / 256 * 256

/-- A segment record (12 Tables 12.2 to 12.4, R329). -/
def sealRecord (g : Segment) (redo : List Byte) (n rseq : Nat) (time : Word) (summary : List Byte) : List Byte :=
  let header := toLe 4 0x44484753 ++ toLe 2 1 ++ toLe 2 n ++ toLe 2 g.sidx.toNat ++ toLe 2 g.entry
    ++ toLe 1 (yardNum (homeOf g.sidx)) ++ toLe 1 g.core.toNat ++ toLe 2 0 ++ toLe 8 g.rid.toNat ++ toLe 8 g.segno
    ++ toLe 8 rseq ++ toLe 8 time.toNat ++ toLe 4 (recLen n) ++ toLe 12 0
  let gap := List.replicate (recLen n - 128 - 80 * n) 0
  let pennant := toLe 4 0x544E4E50 ++ toLe 2 n ++ toLe 2 (if g.bySeala then 1 else 0) ++ toLe 8 g.rid.toNat
    ++ toLe 8 g.segno ++ summary
  let body := header ++ redo ++ gap ++ pennant
  body ++ toLe 8 (crc64 body).toNat

/-- Result area of the dispatch slot that SESSION names, at a segment's seal point (12 R330). -/
def State.summaryOf (s : State) (g : Segment) : List Byte :=
  match coreOfNum g.core.toNat with
  | some c => s.mem.bytes (bankKey c (0x4000 + 128 * (s.core c).slot.toNat + 0x60)) 32
  | none => s.mem.bytes (stewardKey (0x3D0000 + 128 * s.steward.own.slot.toNat + 0x60)) 32

/-- Segments sealed under a session and request ID since the `WAITD` that took the request (12 R314). -/
def sealedCount (l : List (BitVec 16 × Word × Nat)) (sidx : BitVec 16) (rid : Word) : Nat :=
  ((l.find? fun e => e.1 == sidx && e.2.1 == rid).map (·.2.2)).getD 0

/-- That count replaced. -/
def putSealed (l : List (BitVec 16 × Word × Nat)) (sidx : BitVec 16) (rid : Word) (n : Nat) : List (BitVec 16 × Word × Nat) :=
  (sidx, rid, n) :: l.filter fun e => !(e.1 == sidx && e.2.1 == rid)

/-- Segments that a segment's core sealed earlier in the current run of the request (12 R314). -/
def State.entryOf (s : State) (g : Segment) : Nat :=
  match coreOfNum g.core.toNat with
  | some c => sealedCount (s.core c).sealedIn g.sidx g.rid
  | none => sealedCount s.steward.own.sealedIn g.sidx g.rid

/-- One more of them. -/
def State.countSeal (s : State) (g : Segment) : State :=
  let n := s.entryOf g + 1
  match coreOfNum g.core.toNat with
  | some c => s.modCore c fun k => { k with sealedIn := putSealed k.sealedIn g.sidx g.rid n }
  | none => s.modOwn fun k => { k with sealedIn := putSealed k.sealedIn g.sidx g.rid n }

/-- A claimed line recalled at the seal point: a dirty line is written back, and its L2 keeps the copy clean (12 R327). Clean and alone
in one L2, it is in state E there and stays owned by it (DEDUCED, log entry 138). -/
def State.cleanLine (s : State) (line : Nat) : State :=
  match s.dirOf line with
  | some (.owned h) => s.modShed h fun k => if k.l2State line = some .m then k.putL2 line .e else k
  | _ => s

/-- The seal point of a segment (12 R316, R327–R330, R334): it accepts no more writes and its claims are released, the lines clean; its
record is formed from the lines as stored, and the reservation becomes the record's place in the ring. -/
def State.sealNow (s : State) (g : Segment) : State :=
  let y := homeOf g.sidx
  let own (k : YardState) := k.claims.filter (·.segno == g.segno)
  let claims := sortClaims (own s.yardA ++ own s.yardB)
  let n := claims.length
  let ring := (s.yard y).ring
  let g := { g with entry := s.entryOf g, state := SegState.sealed, bySeala := g.request == some true }
  let s := claims.foldl (fun s u => s.cleanLine (lineId u.line)) s
  let record := sealRecord g (claims.flatMap s.redo) n ring.nextRseq s.timer (s.summaryOf g)
  let lines := recLen n / 256
  let rec_ : RingRec := ⟨ring.nextRseq, ring.lines, lines, g.segno, g.sidx, g.rid, true, false, false, false, none⟩
  let s := s.modYard .a fun k => k.dropSegment g.segno (y == .a)
  let s := s.modYard .b fun k => k.dropSegment g.segno (y == .b)
  let s := s.modYard y fun k => { k with ring := { k.ring with
    lines := k.ring.lines + lines, recs := k.ring.recs ++ [rec_], nextRseq := k.ring.nextRseq + 1 } }
  let s := (s.countSeal g).modSegment g.segno fun _ => { g with record := record, rseq := ring.nextRseq }
  (s.modRequest g.sidx g.rid fun r => { r with
    runSegs := r.runSegs + 1, segs := r.segs + 1, pennant := some (ring.lines + lines - 1) }).advanceRing y

/-- Whether a port with a `MIRROR_PAIR` in force exists, so that records are handed to a partner (17, after R424). -/
def State.mirrored (s : State) : Bool := s.ports.any (·.inForce)

/-- A sealed segment's record is written to the home ring and handed to Halyard (12 R327). Under a fence, or with no
`MIRROR_PAIR` in force, its outcome is local at once (15 R393); so it is where it was sealed before the pairing, since none such is sent
(R394, 01 R11; DEDUCED, log entry 146). -/
def State.handover (s : State) (g : Segment) : State :=
  let y := homeOf g.sidx
  match (s.yard y).ring.recs.find? fun e => e.mine && e.rseq == g.rseq with
  | none => s
  | some e =>
    let s := s.ringWrite y e.pos g.record e.nlines
    let mark (x : RingRec) : RingRec := if x.mine && x.rseq == g.rseq then { x with written := true } else x
    let s := s.modYard y fun k => { k with ring := { k.ring with recs := k.ring.recs.map mark } }
    let s := s.modSegment g.segno fun x => { x with state := .handed, record := [] }
    let s := if (s.stream y).fenced || !s.mirrored || decide (g.rseq < (s.stream y).start) then s.settleRec y g.rseq false else s
    { s with segments := s.segments.filter fun x =>
        !(x.segno == g.segno && x.outcome.isSome && !s.heldByCore x) }

/-! ## Reading a record back -/

/-- What the pennant at a line position answers for a request: its summary, and whether the record was acknowledged
(13 R352). The segment header stands NREC redo records ahead, under 12 R328. -/
def State.pennantAt (s : State) (y : Yard) (pos : Nat) (sidx : BitVec 16) (rid : Word) : Option (List Byte × Bool) :=
  let line := s.ringRead y pos 1
  let pen := slice line 192 64
  let n := fieldLe pen 4 2
  let lines := recLen n / 256
  if pos + 1 < lines then none
  else
    let head := slice (s.ringRead y (pos + 1 - lines) 1) 0 64
    let r := (s.yard y).ring
    if fieldLe pen 0 4 = 0x544E4E50 ∧ fieldLe head 0 4 = 0x44484753
        ∧ slice pen 8 16 = slice head 0x10 16 ∧ fieldLe pen 8 8 = rid.toNat
        ∧ fieldLe head 8 2 = sidx.toNat ∧ r.lines < pos + s.ringCap then
      some (slice pen 0x18 32, (r.recs.find? fun e => e.pos + e.nlines = pos + 1).any (·.acked))
    else none

end Sys2Proof.Machine
end

