-- ==== Sys2Proof/Machine/System.lean ====
section
/-! DEFINITION. The control instructions that reach the journal, the Gate and other cores: `JOPEN`, `SEAL`, `SEALA`, `JDROP`,
`WAITD`, `POST`, `SIGNAL` (12 R314–R319, 13 R354–R358, 07 R214). All but `SIGNAL` are synchronising accesses: earlier stores
are performed first (02 R54, R55, 08 R227). -/

namespace Sys2Proof.Machine

open Sys2Proof

/-! ## Segments -/

/-- A JOURNAL_FAULT with FADDR 0 (12 Table 12.1, 07 Table 7.1). -/
def journalExc (code : Nat) (s : State) : Except Stop Done := .error (.exc (plainExc 21 code 0) s)

/-- A segment as `JOPEN` opens it. -/
def newSegment (core : Nat) (sidx : BitVec 16) (rid : Word) (segno : Nat) : Segment where
  segno := segno
  core := BitVec.ofNat 8 core
  sidx := sidx
  rid := rid
  entry := 0
  state := .writing
  request := none
  bySeala := false
  record := []
  rseq := 0
  outcome := none

/-- Number of the next segment. -/
def State.nextSegno (s : State) : Nat := (s.segCounter + 1) % 2 ^ 48

/-- Draws a segment number, reserves ring space and opens the segment of a core by its number (12 R314 steps 1 and 2). -/
def State.drawSegment (s : State) (core : Nat) (sidx : BitVec 16) (rid : Word) : State :=
  let n := s.nextSegno
  let s := { s with segCounter := n }.reserve (homeOf sidx)
  { s with segments := s.segments ++ [newSegment core sidx rid n] }

/-- `JOPEN` of a core (12 R314). -/
def State.openSegment (s : State) (c : CoreId) : State :=
  (s.drawSegment c.val (s.core c).sidx (s.core c).rid).modCore c fun k =>
    { k with jopen := true, segno := BitVec.ofNat 48 s.nextSegno }

/-- Number of the steward core that leads the active pair: pair A is cores 0x60 and 0x61, pair B 0x62 and 0x63 (12 Table 12.2; which pair
has which numbers the spec does not say: DESIGN CHOICE, log entry 139). -/
def Steward.lead (w : Steward) : Nat := if w.pairB then 0x62 else 0x60

/-- `JOPEN` by the steward (12 R312, R314, R315). Where a JOURNAL_FAULT stands against it nothing changes (log entry 139). -/
def State.stewardOpen (s : State) : State :=
  let k := s.steward.own
  if !s.stewardServes then s else
  if k.jopen ∨ k.subOpc = 3 then s
  else (s.drawSegment s.steward.lead k.sidx k.rid).modOwn fun k => { k with jopen := true, segno := BitVec.ofNat 48 s.nextSegno }

/-- `JOPEN` on a core (12 R314, R315). -/
def jopenL (c : CoreId) (w : L64) (s : State) : State :=
  s.issueL c 0x2E0 8 encNone w (fun _ => [])
    (fun s =>
      let k := s.core c
      if k.jopen then journalExc 4 s
      else if k.subOpc = 3 then journalExc 6 s
      else done ((s.drainAll c).openSegment c))

/-- `JOPEN` (12 R314, R315). -/
def execJopen (f : SegForm) (s : State) : Out :=
  match f with
  | .core c w => .next (jopenL c w s)
  | .steward => .next s.stewardOpen

/-- Sends the seal request of a core's segment, once every earlier access is performed (12 R316 steps 1 and 2). -/
def State.requestSeal (s : State) (c : CoreId) (g : Segment) (asy : Bool) : State :=
  ((s.drainAll c).modSegment g.segno fun g => { g with request := some asy }).modCore c fun k =>
    { k with wait := some .mirror }

/-- A segment that has its outcome and that no core holds is forgotten. -/
def State.forget (s : State) (g : Segment) : State :=
  { s with segments := s.segments.filter fun x => !(x.segno == g.segno && x.outcome.isSome) }

/-- `SEAL` and `SEALA` by the steward (12 R316, R318): the request is sent, and the segment let go of once `SEALA` is past its seal point
or `SEAL` has its outcome. -/
def State.stewardSeal (s : State) (asy : Bool) : State :=
  match s.stewardSegment, s.stewardServes with
  | none, _ => s
  | _, false => s
  | some g, true =>
    if g.state = .writing then s.modSegment g.segno fun g => { g with request := some asy }
    else if asy ∨ g.outcome.isSome then (s.forget g).modOwn fun k => { k with jopen := false }
    else s

/-- `SEAL` on a core (12 R316, R317): it waits for its seal point and then for the outcome; re-issued past the seal point it sends no
second request. -/
def sealL (c : CoreId) (w : L64) (s : State) : State :=
  s.issueL c 0x2E1 8 { a := .p, b := .unused, c := .unused } w (fun _ => [])
    (fun s =>
      match s.coreSegment c with
      | none => journalExc 5 s
      | some g =>
        match g.state, g.outcome with
        | .writing, _ => .error (.hold (s.requestSeal c g false) false)
        | _, none => .error (.hold (s.modCore c fun k => { k with wait := some .mirror }) true)
        | _, some m =>
          done (s.forget g |>.modCore c fun k =>
            { k with jopen := false }.setP ((specReg w.sa).setWidth 3) m))

/-- `SEAL` (12 R316, R317). -/
def execSeal (f : SegForm) (s : State) : Out :=
  match f with
  | .core c w => .next (sealL c w s)
  | .steward => .next (s.stewardSeal false)

/-- `SEALA` on a core (12 R318): it waits for its seal point only. -/
def sealaL (c : CoreId) (w : L64) (s : State) : State :=
  s.issueL c 0x2E2 8 encNone w (fun _ => [])
    (fun s =>
      match s.coreSegment c with
      | none => journalExc 5 s
      | some g =>
        match g.state with
        | .writing => .error (.hold (s.requestSeal c g true) false)
        | _ => done (s.forget g |>.modCore c fun k => { k with jopen := false }))

/-- `SEALA` (12 R318). -/
def execSeala (f : SegForm) (s : State) : Out :=
  match f with
  | .core c w => .next (sealaL c w s)
  | .steward => .next (s.stewardSeal true)

/-- `JDROP` on a core (12 R319). -/
def jdropL (c : CoreId) (w : L64) (s : State) : State :=
  s.issueL c 0x2E3 8 encNone w (fun _ => [])
    (fun s =>
      match s.writingSegment c with
      | none => journalExc 5 s
      | some g => done ((s.drainAll c).rollback g.segno))

/-- `JDROP` by the steward (12 R319). -/
def State.stewardDrop (s : State) : State :=
  match s.writingOf 96, s.stewardServes with
  | some g, true => s.rollback g.segno
  | _, _ => s

/-- `JDROP` (12 R319). -/
def execJdrop (f : SegForm) (s : State) : Out :=
  match f with
  | .core c w => .next (jdropL c w s)
  | .steward => .next s.stewardDrop

/-! ## Writes of the steward -/

/-- A write of the active steward pair to program memory: a journaled one needs its segment and the claims, which it asks for and waits
for by being made again; any other is performed (12 R312, R313, R320, R321). -/
def State.stewardStore (s : State) (w : Write) : State :=
  if s.region w.addr ≠ .main ∨ s.journalBase < w.addr + w.len ∨ s.stewardServes = false then s
  else if (mainPages w.addr w.len).all fun p => !attrJrn (s.attr p) then s.perform none w
  else
    match s.writingOf 96 with
    | none => s
    | some g =>
      match s.unclaimed g.segno w.addr w.len with
      | [] => s.perform none w
      | ls =>
        match s.requestClaims 96 3 g.segno ls with
        | .error _ => s.rollback g.segno
        | .ok t => t

/-- A store of the low n bytes with the source's tag, by a core or by the steward (04 R105, 12 R312). A tag given
with one of the codes that are never stored stands for POISON (02 R27; log entry 170). -/
def storeN (opc n : Nat) (f : StoreForm) (s : State) : Out :=
  match f with
  | .core c w => .next (storeL opc n c w s)
  | .steward addr v tag => .next (s.stewardStore ⟨addr.toNat, toLe n v.toNat, tagsFor addr.toNat n (storedTag (storeTag tag))⟩)

/-- `STB` (04 R105). -/
def execStb (f : StoreForm) (s : State) : Out := storeN 0x038 1 f s
/-- `STH` (04 R105). -/
def execSth (f : StoreForm) (s : State) : Out := storeN 0x039 2 f s
/-- `STW` (04 R105). -/
def execStw (f : StoreForm) (s : State) : Out := storeN 0x03A 4 f s

/-! ## Dispatch slots -/

/-- Local-bank address of a dispatch slot (13 Table 13.10). -/
def slotAddr (n : Nat) : Nat := 0x4000 + 128 * n

/-- The oldest descriptor offered to an owner, in dispatch order (13 R356). -/
def State.oldestOffer (s : State) (o : Nat) : Option (Request × Fin 32) :=
  (s.requests.filterMap fun r => (r.offeredTo o).map fun n => (r, n)).foldl
    (fun best x => match best with
      | none => some x
      | some b => if x.1.order < b.1.order then some x else some b) none

/-- A request with an id changed. -/
def State.modReq (s : State) (id : Nat) (f : Request → Request) : State :=
  { s with requests := s.requests.map fun r => if r.id = id then f r else r }

/-- A descriptor is taken: a new run of its request begins (12 R314, 13 R356). -/
def State.takeOffer (s : State) (o : Owner) (r : Request) (n : Fin 32) : State :=
  s.modReq r.id fun r => { r with phase := .taken o n, runSegs := 0 }

/-- A core as its session registers name the request just taken (13 R356, 12 R314, R315). -/
def Core.beginRun (k : Core) (r : Request) (n : Fin 32) : Core :=
  { k with sidx := r.sidx, slot := BitVec.ofNat 5 n.val, rid := r.rid, subOpc := r.entry.headD 0
           sealedIn := putSealed k.sealedIn r.sidx r.rid 0
           status := setBit k.status 9 r.dup }

/-- `WAITD` on a core (13 R356, 07 R213). -/
def waitdL (c : CoreId) (w : L64) (s : State) : State :=
  s.issueL c 0x2E8 8 encD w
    (fun s => [(opA s c w).dest])
    (fun s =>
      let s := s.drainAll c
      match s.oldestOffer c.val with
      | none => .error (.hold (s.modCore c fun k => { k with wait := some .descriptor }) true)
      | some (r, n) => do
        let t ← s.putValue c (opA s c w) 8 (binVal (BitVec.ofNat 64 (slotAddr n.val)))
        let t := t.updateCursors c [opA s c w]
        done ((t.takeOffer ⟨c.val, by omega⟩ r n).modCore c fun k => k.beginRun r n))

/-- The steward takes the oldest descriptor of its own entry (13 R354). -/
def State.stewardTake (s : State) : State :=
  match s.oldestOffer 96, s.stewardServes with
  | none, _ => s
  | _, false => s
  | some (r, n), true => (s.takeOffer 96 r n).modOwn fun k => { k with
      sidx := r.sidx, slot := BitVec.ofNat 5 n.val, rid := r.rid, subOpc := r.entry.headD 0, dup := r.dup
      sealedIn := putSealed k.sealedIn r.sidx r.rid 0 }

/-- `WAITD` (13 R354, R356). -/
def execWaitd (f : WaitdForm) (s : State) : Out :=
  match f with
  | .core c w => .next (waitdL c w s)
  | .steward => .next s.stewardTake

/-- A request posted with its result area of 17 B read from `key` on (13 R357). -/
def State.postRequest (s : State) (id key : Nat) : State :=
  s.modReq id fun r => { r with phase := .posted, csum := s.mem.bytes key 16, appstat := s.mem.byte (key + 16) }

/-- The request whose taken, unposted descriptor starts at an address of the owner's slots, `base` being slot 0. -/
def State.takenAt (s : State) (o base addr : Nat) : Option Request :=
  s.requests.find? fun r => (r.takenBy o).any fun n => decide (addr = base + 128 * n.val)

/-- Whether a request has a segment of an owner that still accepts writes (13 R357). -/
def State.writesFor (s : State) (o : Owner) (r : Request) : Bool :=
  s.segments.any fun g => g.state == SegState.writing && ownerOfNum g.core.toNat == o && r.is g.sidx g.rid

/-- `POST` on a core (13 R357). Its A is read whole, so an element is its 128 B (03 R70 names the width of an operand and none of 128 B:
DEDUCED, log entry 140). A core with an unrepaired row goes to paddock at the `POST` of a request that neither seals nor rolls back, such as
SUBMIT_READONLY: 10 R277 names only those two (DESIGN CHOICE, log entry 161). -/
def postL (c : CoreId) (w : L64) (s : State) : State :=
  let a (s : State) := s.resolve c 0 w.sa 128
  s.issueL c 0x2E9 8 { a := .m, b := .unused, c := .unused } w
    (fun s => [(a s).use true false 128 .move Tag.bin])
    (fun s =>
      let addr := match (a s).place with
        | .mem _ x => x.toNat
        | _ => 0
      match s.takenAt c.val 0x4000 addr with
      | none => .error (.exc (operandExc 0 4 0xA (s.core c).pcc.cursor.toNat) s)
      | some r =>
        if s.writesFor (ownerOf c) r then .error (.exc (operandExc 0 4 0xA (s.core c).pcc.cursor.toNat) s)
        else done ((((s.drainAll c).postRequest r.id (bankKey c (addr + 0x60))).updateCursors c [a s]).settlePaddock c))

/-- The steward posts one of its slots (13 R354). -/
def State.stewardPost (s : State) (slot : Fin 32) : State :=
  match s.takenAt 96 0 (128 * slot.val), s.stewardServes with
  | none, _ => s
  | _, false => s
  | some r, true => if s.writesFor 96 r then s else s.postRequest r.id (stewardKey (0x3D0000 + 128 * slot.val + 0x60))

/-- `POST` (13 R354, R357). -/
def execPost (f : PostForm) (s : State) : Out :=
  match f with
  | .core c w => .next (postL c w s)
  | .steward slot => .next (s.stewardPost slot)

/-! ## Peer signals -/

/-- `SIGNAL` (07 R214). -/
def execSignal (c : CoreId) (w : L64) (s : State) : Out :=
  .next (s.issueL c 0x2F0 8 encVV w
    (fun s => [(opA s c w).source, (opB s c w).source])
    (fun s =>
      let n := (s.value c (opA s c w) 8).w.toNat
      let v := (s.value c (opB s c w) 8).w
      match coreOfNum n with
      | none => .error (.exc (operandExc 0 4 0xA (s.core c).pcc.cursor.toNat) s)
      | some t =>
        let out (s : State) := done (s.updateCursors c [opA s c w, opB s c w])
        if (s.core t).run = .paddock then out s
        else if (s.core t).peers.length ≥ 4 then
          .error (.hold (s.modCore c fun k => { k with wait := some .peer }) true)
        else
          let u := s.updateCursors c [opA s c w, opB s c w]
          done (u.modCore t fun k => { k with peers := k.peers ++ [(c, v)] })))

end Sys2Proof.Machine
end

