-- ==== Sys2Proof/Machine/Loss.lean ====
section
/-! DEFINITION. Sessions, the paddock dump, and entry to vector 0 (07 R209–R211). -/

namespace Sys2Proof.Machine

open Sys2Proof

/-! ## Sessions -/

/-- A session context. -/
def State.session (s : State) (n : Nat) : Session := Sparse.get Session.closed s.sessions n

/-- The module with one session context replaced. -/
def State.setSession (s : State) (n : Nat) (x : Session) : State :=
  { s with sessions := Sparse.set Session.closed s.sessions n x }

/-- The module with one session context changed. -/
def State.modSession (s : State) (n : Nat) (f : Session → Session) : State := s.setSession n (f (s.session n))

/-- Indices of the sessions, open or moving, that an owner owns. -/
def State.sessionsOf (s : State) (o : Nat) : List Nat :=
  (s.sessions.filter fun e => e.2.state != 0 && e.2.owner.val == o).map (·.1)

/-! ## The paddock dump -/

/-- A word of the paddock dump at an offset of bank b (07 R202, R210): bank 0 holds the live values of the stop. CVALID of bank 0 shows no
S_PCC as valid, though offset 0x0A0 holds the live PCC there: R210 gives the offsets from 0x0A0 on and not that bit (DESIGN CHOICE, log entry
135). -/
def Core.dumpWord (k : Core) (e : ExcOperand) (b : Fin 4) (off : Nat) : Word :=
  if b = 0 then
    match off with
    | 0xA0 => k.pcc.cursor
    | 0xA8 => k.pcc.high
    | 0xC0 => k.statusRead
    | 0xC8 => (k.bank.p &&& 0xFE).setWidth 64
    | 0xD0 => k.resume
    | 0xD8 => causeWord e
    | 0xE0 => e.faddr
    | 0xE8 => k.mh
    | 0xF0 => k.ml
    | _ => k.windowRead 0 off
  else k.windowRead b off

/-- The dump's 2 KiB, bank by bank. -/
def Core.dump (k : Core) (e : ExcOperand) : List Byte :=
  (List.range 256).flatMap fun i => toLe 8 (k.dumpWord e (Fin.ofNat 4 (i / 64)) (i % 64 * 8)).toNat

/-- Writes the paddock dump at 0x0800 of the local bank. -/
def State.writeDump (s : State) (c : CoreId) (e : ExcOperand) : State :=
  { s with mem := s.mem.put ⟨bankKey c 0x800, (s.core c).dump e, List.replicate 256 Tag.bin⟩ }

/-! ## Entry to vector 0 -/

/-- CAUSE.CODE of vector 0 (07 Table 7.1). -/
def restartCode : RestartCause → Nat
  | .coldStart => 1
  | .restartCommand => 2
  | .paddockRelease => 3

/-- A core as entry to vector 0 leaves it (07 R211): as at cold start, but for HPCC, HDCC, the bank's scrubber and repair state, DBGCTL.EN
and the control store with its history. An HPCC whose representable window does not hold cursor 0 keeps its validity, with the bounds that
its fields then decode to: R211 has the steward load it with cursor 0 and does not say what comes of its bounds (DESIGN CHOICE, log entry
155). -/
def Core.vector0 (k : Core) (cause : RestartCause) : Core :=
  let hpcc := { k.hpcc with cursor := 0 }
  { Core.reset with
    run := .running
    banks := Vector.replicate 4 (Bank.reset hpcc k.hdcc)
    hpcc := hpcc
    hdcc := k.hdcc
    cause := causeWord (plainExc 0 (restartCode cause) 0)
    dbgctl := k.dbgctl &&& 1
    corr := k.corr
    uncorr := k.uncorr
    spareMap := k.spareMap
    deadSpares := k.deadSpares
    scrubNext := k.scrubNext
    unrepaired := k.unrepaired
    weakRows := k.weakRows
    rowFixes := k.rowFixes
    cs := k.cs
    csHist := k.csHist
    paddockDue := k.paddockDue }

/-- The steward enters vector 0 of a core (07 R211): any open segment is rolled back and untaken descriptors are withdrawn
first. A core with an unrepaired row, whose request has so been rolled back, goes to paddock instead (10 R277). -/
def State.enterVector0 (s : State) (c : CoreId) (cause : RestartCause) : State :=
  let s := ((s.abandonSeal c).loseCore c).releaseSegment c
  (s.modCore c fun k => k.vector0 cause).settlePaddock c

end Sys2Proof.Machine
end

