-- ==== Sys2Proof/Machine/Interrupts.lean ====
section
/-! DEFINITION. Events at a core: the store buffer, interrupts, exceptions, the stop and the paddock dump, entry to vector 0,
the timer and steward signals, and control-store errors (07 R188–R212, 08 R226, 09 R239–R250). -/

namespace Sys2Proof.Machine

open Sys2Proof

/-- STORE_BUFFER_DRAIN (08 R226). -/
def execStoreBufferDrain (c : CoreId) (s : State) : Out := .next (s.drainOne c)

/-! ## Interrupts -/

/-- A pending interrupt that may be recognised: its exception, and the core once its source is cleared. -/
abbrev Pending := Option (ExcOperand × Core)

/-- Debug halt request (07 Table 7.7, 10 R282). -/
def Core.haltPending (k : Core) : Pending :=
  if k.dbgHalt ∧ k.dbgctl.getLsbD 0 ∧ k.ien.getLsbD 3 then some (plainExc 20 4 0, { k with dbgHalt := false }) else none

/-- STEWARD_SIGNAL (07 Table 7.7). -/
def Core.stewardPending (k : Core) : Pending :=
  k.steward.map fun x => (plainExc 23 x.1.toNat x.2.toNat, { k with steward := none })

/-- PEER_SIGNAL (07 Table 7.7): entry takes one queue entry. -/
def Core.peerPending (k : Core) : Pending :=
  match k.peers with
  | [] => none
  | p :: t => if k.ien.getLsbD 2 then some (plainExc 25 p.1.val p.2.toNat, { k with peers := t }) else none

/-- DISPATCH (07 Table 7.7); a core in `WAITD` never takes vector 24 (R213). -/
def State.dispatchInterrupt (s : State) (c : CoreId) : Pending :=
  let k := s.core c
  if k.ien.getLsbD 1 ∧ k.wait ≠ some .descriptor then
    (s.oldestOffer c.val).map fun x => (plainExc 24 x.2.val 0, k)
  else none

/-- TIMER (07 Table 7.7). -/
def State.timerInterrupt (s : State) (c : CoreId) : Pending :=
  if s.timerPending c then some (plainExc 22 1 0, s.core c) else none

/-- The interrupt that ranks highest (07 R191). -/
def State.topInterrupt (s : State) (c : CoreId) : Pending :=
  let k := s.core c
  k.haltPending <|> k.stewardPending <|> k.peerPending <|> s.dispatchInterrupt c <|> s.timerInterrupt c

/-- Length of a delay-slot instruction that an interrupt would abandon: one that waits or has committed progress, or a micro-coded one
whose routine runs (07 Table 7.3, 09 R246). -/
def Core.begunSlot (k : Core) : Nat :=
  match k.delay with
  | some d => if d.begun = 0 ∧ k.engine.isSome then 8 else d.begun
  | none => 0

/-- Whether a core can recognise an interrupt (07 R192, R193, 08 R220, 09 R242, R249): not between the two instructions of a pair. A slot instruction that has begun is abandoned with its
transfer; before it begins, none is recognised. -/
def Core.recognises (k : Core) : Bool :=
  k.run == .running && k.status.getLsbD 0 && decide (k.depth.val ≤ 2) && !k.grace && !k.midPair && (k.delay.isNone || k.begunSlot != 0)
    && k.abandonable

/-- INTERRUPT_RECOGNITION (07 R192, R195): the waiting instruction is abandoned; a `SEAL` short of its seal point with nothing
done (12 R317). -/
def execInterruptRecognition (c : CoreId) (s : State) : Out :=
  if (s.core c).recognises && !s.sheds[shedOf c].retained then
    match s.topInterrupt c with
    | some (e, k) => .next ((s.abandonSeal c).setCore c (k.takeExc e k.begunSlot))
    | none => .next s
  else .next s

/-! ## Exceptions -/

/-- Vectors that a synchronous exception enters (07 Table 7.1). -/
def syncVector (v : Nat) : Bool := v == 1 || (3 ≤ v && v ≤ 21) || 32 ≤ v

/-- Vectors whose exceptions are taken after the instruction has completed (07 Table 7.2 rank 10). -/
def lateVector (v : Nat) : Bool := v == 10 || 32 ≤ v

/-- The exception of the instruction due to issue is taken: at rank 10 once it has completed, so that the next instruction or the
transfer's target is saved (07 Table 7.5); else at the instruction. -/
def State.takeDue (s : State) (c : CoreId) (e : ExcOperand) : State :=
  let len := s.lengthAt c (s.core c).pcc.cursor.toNat
  if lateVector e.vec.val then s.complete c len { s, after := some e } else s.raise c len e

/-- Whether an exception may be found now: while the engine runs a routine, only the one that its word raises (09 R245). -/
def State.mayFind (s : State) (c : CoreId) (e : ExcOperand) : Bool :=
  s.canIssue c && syncVector e.vec.val
    && ((s.core c).engine.isNone || (s.core c).engineRaises == some (BitVec.ofNat 6 e.vec.val, e.code))

/-- SYNCHRONOUS_EXCEPTION_ENTRY (07 R195, R196, 09 R245): the exception of the instruction due to issue. -/
def execSynchronousExceptionEntry (c : CoreId) (e : ExcOperand) (s : State) : Out :=
  .next (if s.mayFind c e && decide ((s.core c).depth.val < 3) then s.takeDue c e else s)

/-- DOUBLE_EXCEPTION (07 R209). -/
def execDoubleException (c : CoreId) (e : ExcOperand) (s : State) : Out :=
  .next (if s.mayFind c e && decide ((s.core c).depth.val = 3) then s.takeDue c e else s)

/-- A stopped core taken to paddock (07 R209, R210): dump, rollback, CORE_STOP record (17 Table 17.6), paddock. -/
def State.paddockDump (s : State) (c : CoreId) : State :=
  match (s.core c).run with
  | .fatal e reason =>
    let time := ((s.core c).stop.map (·.time)).getD s.timer
    let s := (s.loseCore c).writeDump c e
    (s.toPaddock c).logAt time 0x01 2 c.val e.code.toNat (e.vec.val + reason * 2 ^ 8) e.faddr
  | _ => s

/-- PADDOCK_DUMP (07 R209, R210). -/
def execPaddockDump (c : CoreId) (s : State) : Out := .next (s.paddockDump c)

/-- RESTART_ENTRY (07 R211): from ST5 on (18 Table 18.1). A core leaves paddock only through `CORE_RELEASE` (07 R210). -/
def execRestartEntry (c : CoreId) (cause : RestartCause) (s : State) : Out :=
  let ok := match cause, (s.core c).run with
    | .paddockRelease, _ => false
    | _, .stopped => true
    | _, _ => false
  if ok && !s.sheds[shedOf c].retained && decide (5 ≤ s.steward.stage) && !s.steward.warmWait then
    .next (s.enterVector0 c cause)
  else .next s

/-- TIMER_MATCH (07 Table 7.7): TIMER reaches TCMP. -/
def execTimerMatch (c : CoreId) (s : State) : Out :=
  .next (if s.timer < (s.core c).tcmp then { s with timer := (s.core c).tcmp } else s)

/-- STEWARD_SIGNAL (07 R191, Table 7.7). -/
def execStewardSignal (c : CoreId) (code : BitVec 16) (arg : Word) (s : State) : Out :=
  .next (s.modCore c fun k => { k with steward := some (code, arg) })

/-- DEBUG_HALT_REQUEST (10 R282): the write of DBGCTL.HALT. -/
def execDebugHaltRequest (c : CoreId) (s : State) : Out :=
  .next (s.modCore c fun k => { k with dbgHalt := true })

/-! ## Control-store errors -/

/-- One second of TIMER. -/
def second : Nat := 1000000000

/-- Control-store errors of a core within the second before the one found at a time, that one among them (09 R250). -/
def Core.recentCs (k : Core) (time : Word) : List (BitVec 13 × Word) :=
  k.csHist.filter fun e => decide (time.toNat ≤ e.2.toNat + second)

/-- Whether the steward sends a core to paddock for an error at a word (09 R250). -/
def Core.csPaddock (k : Core) (addr : BitVec 13) (time : Word) : Bool :=
  let recent := k.recentCs time
  decide (2 ≤ (recent.filter (·.1 == addr)).length) || decide (17 ≤ recent.length)

/-- CS_ERROR record of an error found at a time (17 Table 17.6): action 1 reloaded, 2 paddock, 3 read-back failed. -/
def State.csLog (s : State) (c : CoreId) (time : Word) (addr : BitVec 13) (groups : BitVec 8) (bad : Bool) (action : Nat) : State :=
  s.logAt time 0x02 (if action = 1 then 1 else 2) c.val addr.toNat
    (groups.toNat + (if bad then 2 ^ 8 else 0) + action * 2 ^ 12) 0

/-- CONTROL_STORE_RELOAD (09 R248, R250): the block is rewritten and read back, and once more where it differs; `first` and `second` are
the bits that do not take. -/
def execControlStoreReload (c : CoreId) (first second : List (BitVec 6 × BitVec 136)) (s : State) : Out :=
  match (s.core c).run with
  | .csError addr groups bad time =>
    let t := s.reloadBlock c addr first
    let t := if t.readsBack c (blockOf addr) then t else s.reloadBlock c addr second
    let action := if (s.core c).csPaddock addr time then 2 else if t.readsBack c (blockOf addr) then 1 else 3
    let t := t.modCore c fun k => { k with csHist := k.recentCs time }
    let t := if action = 1 then t.modCore c fun k => { k with run := .running } else t.toPaddock c
    .next (t.csLog c time addr groups bad action)
  | _ => .next s

end Sys2Proof.Machine
end

