-- ==== Sys2Proof/Machine/Sheds.lean ====
section
/-! DEFINITION. Events of the sheds: L2 and directories, key caches, commits to the shed window, the banks' checks,
scrubber, march and repair, and retention (10 R256–R280, 11 R308, R309, 17 R415, 18 R438). -/

namespace Sys2Proof.Machine

open Sys2Proof

/-! ## Directory actions -/

/-- Bit of a shed in a sharer vector. -/
def shedBit (h : ShedId) : BitVec 12 := 1#12 <<< h.val

/-- A read miss served by the directory (10 Table 10.7). -/
def State.readMiss (s : State) (h : ShedId) (line : Nat) : State :=
  match s.dirOf line with
  | none => s.setDir line (some (.owned h))
  | some (.shared v) => s.setDir line (some (.shared (v ||| shedBit h)))
  | some (.owned t) =>
    if t = h then s
    else (s.modShed t fun x => x.putL2 line .s).setDir line (some (.shared (shedBit t ||| shedBit h)))

/-- DIRECTORY_READ_MISS (10 R280). -/
def execDirectoryReadMiss (h : ShedId) (line : LineId) (s : State) : Out :=
  .next (if s.sheds[h].retained then s else s.readMiss h line.toNat)

/-- A line that a shed's L2 does not hold arrives: in state E for an owner, else S (08 R225, 10 R280). -/
def State.fillL2 (s : State) (h : ShedId) (n : Nat) : State :=
  let s := s.readMiss h n
  let x : L2State := match s.dirOf n with
    | some (.owned _) => .e
    | _ => .s
  s.modShed h fun k => k.putL2 n x

/-- DIRECTORY_OWNERSHIP (10 R280). -/
def execDirectoryOwnership (h : ShedId) (line : LineId) (s : State) : Out :=
  .next (if s.sheds[h].retained then s else s.ownLine h line.toNat)

/-- A shed removed from the record of a line. -/
def Dir.without (h : ShedId) : Dir → Option Dir
  | .owned t => if t = h then none else some (.owned t)
  | .shared v => let w := v &&& ~~~shedBit h; if w = 0 then none else some (.shared w)

/-- The write-back of a line that some L2 of a set of sheds holds dirty is discarded, and reported, where the line has become lost
(11 R301). Else it is done: memory holds what an L2 holds. -/
def State.writeBack (s : State) (which : ShedId → Bool) (line : Nat) : State :=
  if s.lostAt (lineAddr line) && (List.finRange 12).any fun h => which h && s.sheds[h].l2State line == some .m then
    s.discard none (lineAddr line)
  else s

/-- A line evicted from a shed's L2, and with it from the L1 D-caches of its cores (10 Tables 10.6, 10.7). -/
def State.evict (s : State) (h : ShedId) (line : Nat) : State :=
  let s := s.writeBack (· == h) line
  let s := { s with l1d := s.l1d.filter fun e => e.2 != line || shedOf e.1 != h }
  ((s.modShed h fun k => k.dropL2 line).setDir line ((s.dirOf line).bind (Dir.without h))).endReservations (· == h) line

/-- Unknown words of a dirty line are written back as data zero tagged POISON (10 R278); the bits of `bad` name them. A lost line takes no
write (11 R301). It is a write-back and no write by another observer: of the reservations on the line only those of the shed's own
cores end, with its eviction, where 04 R115 does not say which of the two it is (DESIGN CHOICE, log entry 159). -/
def State.writeBackBad (s : State) (n : Nat) (bad : BitVec 8) : State :=
  if s.lostAt (lineAddr n) then s
  else { s with mem := (List.range 8).foldl (fun m w =>
    if bad.getLsbD w then m.put ⟨lineAddr n + 8 * w, List.replicate 8 0, [Tag.poison]⟩ else m) s.mem }

/-- L2_MISS_FILL (08 R225, 10 R278, R280): a line arrives. A line held already stays unless words of it, named by `bad`, are
uncorrectable: then it is written back where it is dirty, dropped, logged L2_UNCORR (17 Table 17.6) and served again. -/
def execL2MissFill (h : ShedId) (line : LineId) (bad : BitVec 8) (s : State) : Out :=
  let n := line.toNat
  let again (s : State) (dirty : Nat) : State :=
    ((s.evict h n).log 0x06 3 h.val 0 dirty (BitVec.ofNat 64 (lineAddr n))).fillL2 h n
  .next (if s.sheds[h].retained then s
    else match s.sheds[h].l2State n with
      | none => s.fillL2 h n
      | some x => if bad = 0 then s else if x = .m then again (s.writeBackBad n bad) 1 else again s 0)

/-- DIRECTORY_EVICTION (10 R280). -/
def execDirectoryEviction (h : ShedId) (line : LineId) (s : State) : Out := .next (s.evict h line.toNat)

/-- DIRECTORY_REPLACEMENT (10 R280): the recall counts as an eviction from every L2. -/
def execDirectoryReplacement (line : LineId) (s : State) : Out :=
  .next ((s.writeBack (fun _ => true) line.toNat).replaceDir line.toNat)

/-! ## Key caches -/

/-- KEY_CACHE_FILL (11 R308). -/
def execKeyCacheFill (h : ShedId) (page : BitVec 25) (s : State) : Out :=
  .next (if s.sheds[h].retained then s
    else s.modShed h fun k => { k with keyCache := keyFill k.keyCache page.toNat (s.attr page.toNat) })

/-- The yard sets the bit of the oldest REF or CHG request in the table (11 R309). -/
def State.landRefChg (s : State) : State :=
  match s.refChg with
  | [] => s
  | (page, chg) :: t => { s with refChg := t }.putAttr page (s.mem.byte (attrAddr page) ||| (if chg then 0x01 else 0x02))

/-- REF_CHG_SET_REQUEST (11 R309). -/
def execRefChgSetRequest (s : State) : Out := .next s.landRefChg

/-! ## Commits to the shed window -/

/-- A BANK_COLLISION of a refused commit word, whose operand is the destination A (10 R268). -/
def busyExc (addr : Nat) : ExcOperand := operandExc 0 19 2 addr

/-- A bank word and tag replaced. -/
def State.putWord (s : State) (key : Nat) (v : Word) (t : Tag) : State :=
  { s with mem := s.mem.put ⟨key, toLe 8 v.toNat, [t]⟩ }

/-- Whether a word at an address of the shed window can be one of the commit that a core has in hand: of the destination A of its micro-coded
instruction that has issued, under the capability that A names (02 R45, 09 R238). -/
def State.commitFits (s : State) (c : CoreId) (a : Nat) (tag : Tag) : Bool :=
  match (s.core c).held with
  | none => false
  | some h =>
    let o := (h.kept.bind (·.opds[0]?)).getD (s.resolve c 0 h.w.sa 1)
    match o.place with
    | .mem cap _ =>
      let u : Use := { n := 0, mem := some { cap, addr := a, len := 8, rd := false, wr := true, cls := .move, wtag := tag } }
      microCoded h.opc && (capFault [u] <|> s.stepFault c [u]).isNone
    | _ => false

/-- COMMIT_WORD_REPRESENTED (10 R268): a word of the commit in hand to the shed window is presented again; the sixteenth refusal raises
BANK_COLLISION at the instruction. No commit has a word with a tag that is never stored (02 Table 2.7). -/
def execCommitWordRepresented (c : CoreId) (addr data : Word) (tag : Tag) (busy : Bool) (s : State) : Out :=
  let a := addr.toNat / 8 * 8
  let n := (a - 0x01000000) / 0x80000
  let k := s.core c
  if s.region a ≠ .window ∨ slotCore c n = c ∨ s.remoteUnavailable c n ∨ !s.canIssue c ∨ storedTag tag ≠ tag ∨
      !s.commitFits c a (storeTag tag) then .next s
  else if !busy then .next ((s.modCore c fun k => { k with represented := 0 }).putWord (s.key c a) data (storeTag tag))
  else if k.represented < 15 then .next (s.modCore c fun k => { k with represented := k.represented + 1 })
  else .next ((s.modCore c fun k => { k with represented := 0 }).raise c (s.lengthAt c k.pcc.cursor.toNat) (busyExc a))

/-! ## Checks of a bank -/

/-- A counter that stops at its top value. -/
def bump (x : BitVec 16) : BitVec 16 := if x = 0xFFFF then x else x + 1

/-- A correction in a row is remembered for one second (17 R415). -/
def Core.fixRow (k : Core) (row : Nat) (now : Word) : Core :=
  { k with
    corr := bump k.corr
    rowFixes := (k.rowFixes.filter fun e => decide (now.toNat ≤ e.2.toNat + second)) ++ [(row, now)] }

/-- A single-bit error of a bank word is corrected and counted; a double-bit error leaves data zero tagged POISON and is
reported (10 R259, 17 Table 17.6 class 0x03). -/
def State.secded (s : State) (c : CoreId) (word_ : Nat) (double : Bool) : State :=
  if double then
    let s := (s.putWord (bankKey c (8 * word_)) 0 Tag.poison).modCore c fun k => { k with uncorr := bump k.uncorr }
    s.log 0x03 3 c.val 0 (if 8 * word_ < 0x4000 then 1 else 0) (BitVec.ofNat 64 (8 * word_))
  else s.modCore c fun k => k.fixRow (word_ / 4) s.timer

/-- SECDED_CORRECTION (10 R259). No agent reaches a bank in retention (R271). -/
def execSecdedCorrection (c : CoreId) (word_ : BitVec 16) (double : Bool) (s : State) : Out :=
  .next (if s.sheds[shedOf c].retained then s else s.secded c word_.toNat double)

/-- Row of the bank that the scrubber's row number stands for: a row by its own number, a spare by the row that it stands in for; none for
a row mapped away and for a spare not in use, whose cells no access reaches (10 R258, R263, R272). -/
def Core.scrubbedRow (k : Core) (n : Nat) : Option Nat :=
  if n < 16384 then (if k.spareMap.any (·.1 == n) then none else some n)
  else (k.spareMap.find? (·.2 == n - 16384)).map (·.1)

/-- An error in a cell that no access reaches: it is counted, and reported when double (10 R259, R263). Its address is that of the row
mapped away, or past the bank for a spare (DESIGN CHOICE, log entry 136). -/
def State.secdedSpare (s : State) (c : CoreId) (n : Nat) (double : Bool) : State :=
  if double then
    (s.modCore c fun k => { k with uncorr := bump k.uncorr }).log 0x03 3 c.val 0 (if n < 512 then 1 else 0) (BitVec.ofNat 64 (32 * n))
  else s.modCore c fun k => { k with corr := bump k.corr }

/-- BANK_SCRUB_ROW (10 R263): the words found in error in the row that is due; the scrubber goes on to the next of 16,416. -/
def execBankScrubRow (c : CoreId) (errs : List (BitVec 2 × Bool)) (s : State) : Out :=
  if s.sheds[shedOf c].retained then .next s
  else
    let n := (s.core c).scrubNext
    let s := s.modCore c fun k => { k with scrubNext := (n + 1) % 16416 }
    .next (errs.foldl (fun s e =>
      match (s.core c).scrubbedRow n with
      | some row => s.secded c (row * 4 + e.1.toNat) e.2
      | none => s.secdedSpare c n e.2) s)

/-! ## March and repair -/

/-- The lowest spare row of 32 that no failed row maps to and that has not failed a march (10 R272). -/
def Core.freeSpare (k : Core) : Option Nat :=
  (List.range 32).find? fun n => !k.spareMap.any (·.2 == n) && !k.deadSpares.contains n

/-- A failed row is mapped to the lowest free spare, else recorded as unrepaired (10 R272, R277), with its ROW_REPAIR record
(17 Table 17.6). A row already mapped gives its spare up for another. -/
def State.failRow (s : State) (c : CoreId) (row : Nat) : State :=
  let s := s.modCore c fun k => { k with
    deadSpares := k.deadSpares ++ (k.spareMap.filter (·.1 == row)).map (·.2)
    spareMap := k.spareMap.filter (·.1 != row) }
  let used (s : State) : Nat := (s.core c).spareMap.length
  match (s.core c).freeSpare with
  | some n =>
    let s := s.modCore c fun k => { k with spareMap := k.spareMap ++ [(row, n)] }
    s.log 0x05 1 c.val (used s) 0 (BitVec.ofNat 64 (row * 32))
  | none =>
    let s := s.modCore c fun k => { k with
      unrepaired := if row ∈ k.unrepaired then k.unrepaired else k.unrepaired ++ [row]
      paddockDue := k.run != .paddock }
    s.log 0x05 2 c.val (used s) 1 (BitVec.ofNat 64 (row * 32))

/-- The spare rows are tested first (10 R272): one that fails is never used, and a row that it stood in for fails with it. -/
def State.failSpare (s : State) (c : CoreId) (n : Nat) : State :=
  match (s.core c).spareMap.find? (·.2 == n) with
  | some e => s.failRow c e.1
  | none => s.modCore c fun k => if k.deadSpares.contains n then k else { k with deadSpares := k.deadSpares ++ [n] }

/-- A march over rows of a bank: the spares that fail, then the rows, repaired in ascending order (10 R272, R274). It keeps the data. -/
def State.march (s : State) (c : CoreId) (spares : List (Fin 32)) (rows : List Nat) : State :=
  let spares := (List.range 32).filter fun n => spares.any (·.val == n)
  (rows.foldl (fun s r => s.failRow c r) (spares.foldl (fun s n => s.failSpare c n) s)).settlePaddock c

/-- MARCH_STRIPE (10 R274, Table 10.5): the engine of the shed borrows the stripe and copies it, then tests it, then restores it, one phase
a command; `failed` names the rows that the test found, by their place in the stripe, and `spares` the spare rows. While the stripe is
borrowed its words stand in the save buffer, where every access finds them, so memory holds them throughout. -/
def execMarchStripe (c : CoreId) (stripe : BitVec 7) (failed : List (BitVec 7)) (spares : List (Fin 32)) (s : State) : Out :=
  let h := shedOf c
  let n := stripe.toNat
  match s.sheds[h].march with
  | none =>
    .next (if s.canBorrow c n then
        s.modShed h fun k => { k with march := some ⟨c, n, 0⟩, marchDue := k.marchDue.filter (· != (c, n)) }
      else s)
  | some m =>
    if m.core ≠ c ∨ m.stripe ≠ n then .next s
    else if m.phase < 2 then .next (s.modShed h fun k => { k with march := some { m with phase := m.phase + 1 } })
    else
      let weak := (s.core c).weakRows
      let rows := ((List.range 128).map fun r => n * 128 + r).filter fun r => failed.any (·.toNat == r % 128) || weak.contains r
      let s := s.modCore c fun k => { k with weakRows := weak.filter fun r => r / 128 != n }
      .next (((s.modShed h fun k => { k with march := none }).march c spares rows).nextMarch h)

/-- Whether more than four words of a row have been corrected within one second (17 R415). -/
def Core.rowWeak (k : Core) (row : Nat) : Bool := decide (4 < (k.rowFixes.filter (·.1 == row)).length)

/-- ROW_REPAIR_TRIGGER (17 R415): for a row with more than four corrections within one second a preserving march of its stripe is due, which
maps it to a spare; a row of the tack region waits for paddock. -/
def execRowRepairTrigger (c : CoreId) (row : BitVec 14) (s : State) : Out :=
  let h := shedOf c
  let d := (c, row.toNat / 128)
  .next (if (s.core c).rowWeak row.toNat then
      let s := s.modCore c fun k => { k with
        weakRows := if k.weakRows.contains row.toNat then k.weakRows else k.weakRows ++ [row.toNat]
        rowFixes := k.rowFixes.filter (·.1 != row.toNat) }
      (s.modShed h fun k => if k.marchDue.contains d then k else { k with marchDue := k.marchDue ++ [d] }).nextMarch h
    else s)

/-! ## Retention -/

/-- Cores of a shed. -/
def coresOf (h : ShedId) : List CoreId := (List.range 8).map fun n => ⟨(h.val * 8 + n) % 96, by omega⟩

/-- Whether a shed may enter retention (18 R438); that it has held for 100 ms is the steward's to know. -/
def State.mayRetain (s : State) (h : ShedId) : Bool :=
  !s.sheds[h].retained && s.sheds[h].march.isNone
    && (coresOf h).all fun c => (s.sessionsOf c.val).isEmpty && !(s.entry (ownerOf c)).en && (s.openSegments c).isEmpty

/-- A shed's lines written back and its caches empty, L1 included (10 R270, 18 Table 18.4). -/
def State.emptyCaches (s : State) (h : ShedId) : State :=
  let lines := s.sheds[h].l2.map (·.1)
  let s := lines.foldl (fun s line => s.evict h line) s
  let s := { s with l1d := s.l1d.filter fun e => shedOf e.1 != h, l1i := s.l1i.filter fun e => shedOf e.1 != h }
  s.modShed h fun k => { k with l2 := [], keyCache := [] }

/-- SHED_RETENTION_ENTER (18 R438, 10 R270): the cores' buffered stores are performed first. -/
def execShedRetentionEnter (h : ShedId) (s : State) : Out :=
  if s.mayRetain h then
    let s := (coresOf h).foldl (fun s c => s.drainAll c) s
    .next ((s.emptyCaches h).modShed h fun k => { k with retained := true })
  else .next s

/-- A shed woken (10 R271): each control store that differs from the merged image is reloaded from it, and each of its cores that was in
service enters vector 0 with cause 0x0002 (07 R211, 18 R434). -/
def State.wake (s : State) (h : ShedId) : State :=
  if s.sheds[h].retained then
    let s := s.modShed h fun k => { k with retained := false }
    let s := (coresOf h).foldl (fun s c => s.modCore c fun k => k.loadCs s.imageCs []) s
    (coresOf h).foldl (fun s c =>
      match (s.core c).run with
      | .running => s.enterVector0 c .restartCommand
      | .csError _ _ _ _ => s.enterVector0 c .restartCommand
      | _ => s) (s.nextMarch h)
  else s

/-- SHED_WAKE (10 R271). -/
def execShedWake (h : ShedId) (s : State) : Out := .next (s.wake h)

end Sys2Proof.Machine
end

