-- ==== Sys2Proof/Machine/Yards.lean ====
section
/-! DEFINITION. Events of the yards: reading a line under its chunk checks, writing one, channel failure and rebuild, the patrol
scrubber, the spare, and initialisation (11 R284, R288–R306, R310, R470). -/

namespace Sys2Proof.Machine

open Sys2Proof

/-! ## The stripe -/

/-- What lies at a position of line n (11 R288): 0 parity, 1 metadata, 2 + k data chunk k. -/
def roleAt (n : Nat) (pos : Nat) : Nat := (pos + 10 - n % 10) % 10

/-- A data chunk as a number, and its four tags. -/
def State.dataChunk (s : State) (y : Yard) (n k : Nat) : List Byte × List Tag :=
  let a := yardLineAddr y n + 32 * k
  (s.mem.bytes a 32, (List.range 4).map fun i => s.mem.tagAt (a + 8 * i))

/-- The metadata chunk of a line (11 R290, Table 11.3). -/
def metaChunk (n : YLine) (data : List (List Byte × List Tag)) : List Byte :=
  let tags := data.flatMap (·.2)
  let packed := (List.range 32).foldl (fun t w => t + (tags.getD w 0).toNat * 2 ^ (4 * w)) 0
  let checks := (List.range 8).foldl (fun t k =>
    let d := data.getD k ([], [])
    t + (crc14 n d.1 d.2).toNat * 2 ^ (14 * k)) 0
  let body := toLe 16 packed ++ toLe 14 checks
  body ++ toLe 2 (crc16 n body).toNat

/-- The ten chunks as stored, by role: parity, metadata, data 0 to 7 (11 R292). -/
def State.stripe (s : State) (y : Yard) (n : YLine) : List Nat :=
  let data := (List.range 8).map (s.dataChunk y n.toNat)
  let nine := leNat (metaChunk n data) :: data.map fun d => leNat d.1
  nine.foldl (· ^^^ ·) 0 :: nine

/-- What a line read ends in: the words left unknown, one bit each; whether it counts as a correction; the chunks as delivered, by role;
and the roles of the chunks that failed their checks. -/
structure ReadOutcome where
  unknown : Nat
  corrected : Bool
  chunks : List Nat
  fails : List Nat
  deriving DecidableEq, Repr

/-- XOR of every chunk but the one of a role (11 R292). -/
def rebuildChunk (chunks : List Nat) (role : Nat) : Nat :=
  (List.range 10).foldl (fun x i => if i = role then x else x ^^^ chunks.getD i 0) 0

/-- Whether a metadata chunk passes MCHK (11 R291). -/
def metaOk (n : YLine) (m : Nat) : Bool := (crc16 n (toLe 30 m)).toNat == m / 2 ^ 240

/-- Whether data chunk k passes its check in a metadata chunk (11 R291). -/
def dataOk (n : YLine) (m k v : Nat) : Bool :=
  let tags := (List.range 4).map fun i => BitVec.ofNat 4 (m / 2 ^ (4 * (4 * k + i)) % 16)
  (crc14 n (toLe 32 v) tags).toNat == m / 2 ^ (128 + 14 * k) % 2 ^ 14

/-- Words of data chunk k. -/
def chunkWords (k : Nat) : Nat := 15 * 2 ^ (4 * k)

/-- Words of several data chunks. -/
def chunksWords (ks : List Nat) : Nat := (ks.map chunkWords).sum

/-- Every word of a line. -/
def allWords : Nat := 2 ^ 32 - 1

/-- Data chunks that fail under a metadata chunk. -/
def failing (n : YLine) (chunks : List Nat) (m : Nat) (skip : Nat) : List Nat :=
  (List.range 8).filter fun k => k + 2 != skip && !dataOk n m k (chunks.getD (k + 2) 0)

/-- A line read with every chunk there (11 Table 11.4). -/
def readWhole (n : YLine) (chunks : List Nat) : ReadOutcome :=
  let m := chunks.getD 1 0
  if metaOk n m then
    match failing n chunks m 10 with
    | [] => ⟨0, chunks.foldl (· ^^^ ·) 0 != 0, chunks, []⟩
    | [k] =>
      let v := rebuildChunk chunks (k + 2)
      if dataOk n m k v then ⟨0, true, chunks.set (k + 2) v, [k + 2]⟩ else ⟨chunkWords k, false, chunks, [k + 2]⟩
    | ks => ⟨chunksWords ks, false, chunks, ks.map (· + 2)⟩
  else
    let m' := rebuildChunk chunks 1
    let ks := if metaOk n m' then failing n chunks m' 10 else []
    if metaOk n m' && ks.isEmpty then ⟨0, true, chunks.set 1 m', [1]⟩ else ⟨allWords, false, chunks, 1 :: ks.map (· + 2)⟩

/-- A line read with the chunk of one role missing (11 Table 11.4). -/
def readMissing (n : YLine) (chunks : List Nat) (role : Nat) : ReadOutcome :=
  let v := rebuildChunk chunks role
  let chunks := chunks.set role v
  let m := chunks.getD 1 0
  let ks := if metaOk n m then failing n chunks m role else []
  let fails := ks.map (· + 2)
  if !metaOk n m then ⟨allWords, false, chunks, if role = 1 then [] else [1]⟩
  else if role = 1 then ⟨if ks.isEmpty then 0 else allWords, false, chunks, fails⟩
  else if role = 0 then ⟨chunksWords ks, false, chunks, fails⟩
  else if ks.isEmpty then ⟨if dataOk n m (role - 2) v then 0 else chunkWords (role - 2), false, chunks, []⟩
  else ⟨chunksWords (ks ++ [role - 2]), false, chunks, fails⟩

/-- Position whose chunk is missing for a line, if one is (11 R298, R300, R301). -/
def YardState.missingAt (k : YardState) (n : Nat) : Option (Fin 10) :=
  if k.mode = 2 ∧ n < k.rptr then none else k.missing

/-- Reads the chunks as stored with bits flipped by position; a missing chunk has none. -/
def State.readOutcome (s : State) (y : Yard) (n : YLine) (errs : List ChunkError) : ReadOutcome :=
  let flip (role v : Nat) : Nat := errs.foldl (fun v e => if roleAt n.toNat e.pos.val = role then v ^^^ e.flips.toNat else v) v
  let chunks := (s.stripe y n).mapIdx flip
  match (s.yard y).missingAt n.toNat with
  | none => readWhole n chunks
  | some p => readMissing n chunks (roleAt n.toNat p.val)

/-- Whether an L2 holds the 64 B line of an address dirty; a dirty copy is not affected by a yard's write-back (11 R296). -/
def State.dirty (s : State) (a : Nat) : Bool :=
  match s.dirOf (lineId a) with
  | some (.owned h) => s.sheds[h].l2State (lineId a) == some .m
  | _ => false

/-! ## Yard status -/

/-- The yard status word (11 Table 11.5). -/
def YardState.word (k : YardState) : Word :=
  BitVec.ofNat 64 (k.mode.toNat + k.spare.toNat * 2 ^ 2 + k.failed.toNat * 2 ^ 6 + (if k.rate then 2 ^ 10 else 0)
    + (if k.lostUp then 2 ^ 11 else 0) + k.rptr % 2 ^ 28 * 2 ^ 12 + k.pcount * 2 ^ 40)

/-- YARD_MODE record (11 R310, 17 Table 17.6). -/
def State.logYard (s : State) (y : Yard) : State :=
  s.log 0x10 (if (s.yard y).mode = 0 then 0 else 2) (yardNum y) 0 0 (s.yard y).word

/-- A yard changed, with its record where the mode changes. -/
def State.yardMode (s : State) (y : Yard) (f : YardState → YardState) : State :=
  let t := s.modYard y f
  if (s.yard y).mode = (t.yard y).mode then t else t.logYard y

/-! ## Channels that fail -/

/-- The position that a physical channel holds. -/
def YardState.posOf (k : YardState) (ch : Fin 11) : Option (Fin 10) :=
  (List.finRange 10).find? fun p => k.posMap[p] == ch

/-- A yard with two channels missing for every line (11 R303, Table 11.5). -/
def YardState.failedYard (k : YardState) : YardState :=
  { k with
    mode := 3
    failed := ((k.deadChannels.head?.map fun c => BitVec.ofNat 4 c.val)).getD 0xF
    lostUp := false
    rptr := 0 }

/-- A channel declared failed (11 R297, R298, R301–R303, R470). -/
def YardState.loseChannel (k : YardState) (ch : Fin 11) : YardState :=
  if ch ∈ k.deadChannels then k
  else
    let k := { k with deadChannels := k.deadChannels ++ [ch] }
    match k.posOf ch with
    | none => if k.spare.toNat = ch.val then { k with spare := 0xF } else k
    | some p =>
      if k.mode = 3 then k
      else if k.mode = 0 then { k with mode := 1, failed := BitVec.ofNat 4 ch.val, missing := some p }
      else if k.mode = 2 ∧ k.missing = some p then { k with mode := 1, rptr := 0 }
      else if k.mode = 2 ∧ k.rptr ≠ 0 then
        { k with mode := 1, failed := BitVec.ofNat 4 ch.val, missing := some p, lostUp := true }
      else k.failedYard

/-- Chunks of a line that failed their checks are counted against their channels; a channel whose chunks have failed on 16 distinct lines
within 1 ms, which TIMER counts as 1,000,000, is declared failed (11 R297, 02 Table 2.6). -/
def YardState.countFails (k : YardState) (now : Word) (n : Nat) (roles : List Nat) : YardState :=
  let ch (role : Nat) : Fin 11 := k.posMap[Fin.ofNat 10 (n + role)]
  let k := roles.foldl (fun k r =>
    { k with fails := (ch r, n, now) :: k.fails.filter fun e => (e.1 != ch r || e.2.1 != n) && decide (now.toNat ≤ e.2.2.toNat + 1000000) }) k
  ((roles.map ch).filter fun c => decide (16 ≤ (k.fails.filter (·.1 == c)).length)).foldl YardState.loseChannel k

/-! ## Reading and writing a line -/

/-- Whether the yards serve lines: not from a reset until training at ST3 is over, when the channels are in self-refresh (11 R284). -/
def State.yardsServe (s : State) : Bool := decide (3 ≤ s.steward.stage)

/-- Words of a line written back as data zero tagged POISON (11 R296), but for those of a line that an L2 holds dirty. It is a write of
the yard's own, as a correction is: the line is recalled and reservations on it end (10 Table 10.7, 04 R115). -/
def State.poisonWords (s : State) (y : Yard) (n mask : Nat) : State :=
  (List.range 32).foldl (fun s w =>
    let a := yardLineAddr y n + 8 * w
    if mask.testBit w ∧ s.dirty a = false then s.performLine none ⟨a, List.replicate 8 0, [Tag.poison]⟩ else s) s

/-- A line rewritten by its yard with what it holds (11 Table 11.4, 10 Table 10.7). -/
def State.rewriteLine (s : State) (y : Yard) (n : Nat) : State :=
  (List.range 4).foldl (fun s i => s.performLine none ⟨yardLineAddr y n + 64 * i, [], []⟩) s

/-- Words that are not unknown are delivered as stored, flipped bits that pass every check among them (11 R295). Memory takes them where
no L2 holds the line: a copy in an L2 is not read (log entry 137). -/
def State.deliverLine (s : State) (y : Yard) (n : Nat) (o : ReadOutcome) : State :=
  (List.range 32).foldl (fun s w =>
    let a := yardLineAddr y n + 8 * w
    let v := toLe 8 (o.chunks.getD (w / 4 + 2) 0 / 2 ^ (64 * (w % 4)))
    let t := storedTag (BitVec.ofNat 4 (o.chunks.getD 1 0 / 2 ^ (4 * w)))
    if o.unknown.testBit w || (s.dirOf (lineId a)).isSome || (s.mem.bytes a 8 == v && s.mem.tagAt a == t) then s
    else { s with mem := s.mem.put ⟨a, v, [t]⟩ }) s

/-- A line read under Table 11.4 with its write-backs and reports, and the failing chunks counted (11 R295 to R297). -/
def State.readLine (s : State) (y : Yard) (n : YLine) (errs : List ChunkError) : State :=
  if (s.yard y).lost n.toNat || !s.yardsServe || errs.isEmpty then s
  else
    let o := s.readOutcome y n errs
    let s := s.deliverLine y n.toNat o
    let s : State :=
      if o.unknown ≠ 0 then
        let s := (s.poisonWords y n.toNat o.unknown).modYard y fun k => { k with pcount := min (k.pcount + 1) 0xFFFFFF }
        s.log 0x11 3 (yardNum y) n.toNat o.unknown (BitVec.ofNat 64 (yardLineAddr y n.toNat))
      else if o.corrected then
        (if o.fails.isEmpty then s else s.rewriteLine y n.toNat).modYard y fun k => { k with corrections := k.corrections + 1 }
      else s
    s.yardMode y fun k => k.countFails s.timer n.toNat o.fails

/-- LINE_READ (11 R293, R295). -/
def execLineRead (y : Yard) (n : YLine) (errs : List ChunkError) (s : State) : Out := .next (s.readLine y n errs)

/-- LATE_CHUNK (11 R293): a tenth chunk that differs from its rebuilt value is rewritten. -/
def execLateChunk (y : Yard) (n : YLine) (pos : Fin 10) (differs : Bool) (s : State) : Out :=
  let k := s.yard y
  .next (if differs && s.yardsServe && !k.lost n.toNat && k.missingAt n.toNat != some pos then
      (if roleAt n.toNat pos.val = 0 then s else s.rewriteLine y n.toNat).modYard y fun k =>
        { k with corrections := k.corrections + 1 }
    else s)

/-- LINE_WRITE (11 R294). No agent writes a tag that is never stored (02 Table 2.7), and none writes before training is over (R284). -/
def execLineWrite (y : Yard) (n : YLine) (off : BitVec 8) (data : List Byte) (tags : List Tag) (s : State) : Out :=
  .next (if s.yardsServe && !data.isEmpty && tags.all fun t => storedTag t == t then
      s.yardWrite ⟨yardLineAddr y n.toNat + off.toNat, data, tags⟩
    else s)

/-! ## Channel failure and rebuild -/

/-- CHANNEL_FAILED (11 R297). -/
def execChannelFailed (y : Yard) (ch : Fin 11) (s : State) : Out := .next (s.yardMode y fun k => k.loseChannel ch)

/-- A rebuild begins onto the free spare, which takes the failed position (11 R299). -/
def YardState.startRebuild (k : YardState) : YardState :=
  match k.missing with
  | some p =>
    if k.mode = 1 ∧ k.lostUp = false ∧ k.spare.toNat < 11 then
      { k with mode := 2, posMap := k.posMap.set p (Fin.ofNat 11 k.spare.toNat), spare := 0xF, rptr := 0 }
    else k
  | none => k

/-- REBUILD_START (11 R299). -/
def execRebuildStart (y : Yard) (s : State) : Out := .next (s.yardMode y YardState.startRebuild)

/-- The rebuild pointer moves on; past the last line the yard is fully protected (11 R299). A rebuild that the read of the line has stopped
keeps its pointer (R301). -/
def YardState.stepRebuild (k : YardState) : YardState :=
  if k.mode ≠ 2 then k
  else if k.rptr + 1 < 2 ^ 28 then { k with rptr := k.rptr + 1 }
  else { k with mode := 0, failed := 0xF, rptr := 0, missing := none }

/-- REBUILD_STEP (11 R299): the line at the pointer is read with its chunk missing, and written back where words are
unknown. -/
def execRebuildStep (y : Yard) (errs : List ChunkError) (s : State) : Out :=
  .next (if (s.yard y).mode = 2 ∧ s.yardsServe then
      (s.readLine y (BitVec.ofNat 28 (s.yard y).rptr) errs).yardMode y YardState.stepRebuild
    else s)

/-! ## Scrubbing and initialisation -/

/-- What a free spare holds at chunk n: four words, each equal to the chunk's channel address, of which BL16 bursts of 32 B make n × 32
(11 R288, R305). -/
def sparePattern (n : Nat) : BitVec 256 :=
  let w := BitVec.ofNat 64 (32 * n)
  w ++ w ++ w ++ w

/-- Whether every spare chunk read back holds its pattern. -/
def spareHolds (back : List (YLine × BitVec 256)) : Bool := back.all fun e => e.2 == sparePattern e.1.toNat

/-- A free spare that returns a wrong chunk is declared failed (11 R305). -/
def YardState.checkSpare (k : YardState) (ok : Bool) : YardState :=
  if h : k.spare.toNat < 11 then (if ok then k else k.loseChannel ⟨k.spare.toNat, h⟩) else k

/-- The scrubber writes the next chunk of a free spare and reads it back (11 R305). -/
def YardState.scrubSpare (k : YardState) (back : BitVec 256) : YardState :=
  if k.spare.toNat < 11 then
    { k with spareCheck := (k.spareCheck + 1) % 2 ^ 28 }.checkSpare (back == sparePattern k.spareCheck)
  else k

/-- PATROL_SCRUB_LINE (11 R304, R305): the scrubber pauses while its yard rebuilds, and may be stopped. -/
def execPatrolScrubLine (y : Yard) (errs : List ChunkError) (back : BitVec 256) (s : State) : Out :=
  let k := s.yard y
  .next (if k.sweepHours = 0 ∨ k.mode = 2 ∨ s.yardsServe = false then s
    else
      (s.readLine y (BitVec.ofNat 28 k.patrolNext) errs).yardMode y fun k =>
        { k with patrolNext := (k.patrolNext + 1) % 2 ^ 28, scrubbed := k.scrubbed + 1 }.scrubSpare back)

/-- Memory with every line of a yard at data zero, tag UNINIT (11 R306). -/
def Memory.clearYard (m : Memory) (y : Yard) : Memory :=
  { data := m.data.filter fun e => decide (e.1 < mainBase ∨ yardOf e.1 ≠ y)
    tags := m.tags.filter fun e => decide (8 * e.1 < mainBase ∨ yardOf (8 * e.1) ≠ y) }

/-- YARD_INITIALISATION (11 R305, R306): the one that ST3 of a cold start began ends, every line and the spare written; `back` names the
spare chunks that read back and what they held. -/
def execYardInitialisation (y : Yard) (back : List (YLine × BitVec 256)) (s : State) : Out :=
  .next (if (s.yard y).initialised || !s.yardsServe then s
    else { s with mem := s.mem.clearYard y }.yardMode y fun k => { k with initialised := true }.checkSpare (spareHolds back))

end Sys2Proof.Machine
end

