-- ==== Sys2Proof/Machine/Mirror.lean ====
section
/-! DEFINITION. Events of the journal: claims, rollback, the seal point, hand-over, ring marks and the journal stream
(12 R320–R339). -/

namespace Sys2Proof.Machine

open Sys2Proof

/-! ## Claims -/

/-- The segment of a claim request is rolled back. The instruction that asks and still waits raises JOURNAL_FAULT 0x0003; one that has
been abandoned leaves the fault to the core's next instruction boundary (12 R321, R323, R324). -/
def State.failClaim (s : State) (r : ClaimReq) : State :=
  match coreOfNum r.owner.val with
  | none => s.rollback r.segno
  | some c =>
    match (s.core c).held with
    | none => s.rollbackOwed r.segno r.line
    | some h =>
      let t := s.rollback r.segno
      if (t.core c).run = .running then t.raise c h.len (operandExc r.opnd 21 3 r.line) else t

/-- CLAIM_REQUEST (12 R320, R321): a journaled write asks for a line that its segment has not claimed; beyond the limit the segment is
rolled back. -/
def execClaimRequest (o : Owner) (line : LineId) (s : State) : Out :=
  let a := lineAddr line.toNat
  match s.writingOf o with
  | none => .next s
  | some g =>
    match s.requestClaims o 3 g.segno (s.unclaimed g.segno a 64) with
    | .ok t => .next t
    | .error l => .next (s.failClaim ⟨l, g.segno, o, 3⟩)

/-- The request of an owner that waits for a line at its yard. -/
def State.claimReq (s : State) (o : Owner) (a : Nat) : Option ClaimReq :=
  (s.yard (yardOf a)).claimReqs.find? fun r => r.owner == o && r.line == a

/-- A core that waits for claims goes on once none of its requests waits. -/
def State.claimsGranted (s : State) (c : CoreId) : State :=
  let waits := (s.yardA.claimReqs ++ s.yardB.claimReqs).any fun q => q.owner == ownerOf c
  s.modCore c fun k => if k.wait = some .claim ∧ waits = false then { k with wait := none } else k

/-- A claim granted: undo captured, the line recalled and in state M at the core's shed, CHG set (12 R320). The steward has no L2. -/
def State.grantClaim (s : State) (r : ClaimReq) : State :=
  let y := yardOf r.line
  let undo := s.undoOf r.segno r.line
  let core := coreOfNum r.owner.val
  let s := match core with
    | some c => s.ownLine (shedOf c) (lineId r.line)
    | none => s.recallLine (lineId r.line)
  let s := (s.setChg (pageOf r.line)).modYard y fun k => { k with
    claims := k.claims ++ [undo]
    claimReqs := k.claimReqs.filter fun q => !(q.line == r.line && q.segno == r.segno) }
  match core with
  | some c => s.claimsGranted c
  | none => s

/-- CLAIM_GRANT (12 R320, R323): of a line that no segment claims. -/
def execClaimGrant (o : Owner) (line : LineId) (s : State) : Out :=
  let a := lineAddr line.toNat
  match s.claimReq o a with
  | none => .next s
  | some r => if ((s.yard (yardOf a)).claimOn a).isSome then .next s else .next (s.grantClaim r)

/-- CLAIM_TIMEOUT (12 R323, R324): the younger of the two segments is rolled back; where that is the claiming one, the request is
granted by CLAIM_GRANT. -/
def execClaimTimeout (o : Owner) (line : LineId) (s : State) : Out :=
  let a := lineAddr line.toNat
  match s.claimReq o a, (s.yard (yardOf a)).claimOn a with
  | some r, some x =>
    if r.segno = x.segno then .next s
    else if x.segno < r.segno then .next (s.failClaim r)
    else .next (s.rollbackOwed x.segno a)
  | _, _ => .next s

/-! ## Rollback and seal -/

/-- Words of a claim's undo copy that the journal buffer can no longer correct (12 R336). -/
def State.spoilUndo (s : State) (e : LineId × BitVec 8) : State :=
  let a := lineAddr e.1.toNat
  s.modYard (yardOf a) fun k => { k with
    claims := k.claims.map fun u => if u.line = a then { u with bad := u.bad ||| e.2 } else u }

/-- SEGMENT_ROLLBACK (12 R336), with the words of undo copies that are found uncorrectable, of this segment or of another; every rollback,
whatever makes it, meets those of its lines (log entry 158). A rollback for a stopped core begins with the loss of its requests (16 R404).
A segment past its seal point, or none, is not rolled back (R337). -/
def execSegmentRollback (segno : BitVec 48) (bad : List (LineId × BitVec 8)) (s : State) : Out :=
  let s := bad.foldl State.spoilUndo s
  match s.segment segno.toNat with
  | none => .next s
  | some g =>
    if g.state ≠ .writing then .next s
    else
      match coreOfNum g.core.toNat with
      | none => .next (s.rollback g.segno)
      | some c => .next (match (s.core c).run with
        | .fatal _ _ => (s.loseCore c).rolledPaddock c
        | _ => s.rollback g.segno)

/-- SEAL_POINT (12 R316): the home yard accepts the seal request of a running core or of the steward. A `SEAL` then begins to wait for the
mirror, which ends the grace after `RETX` (07 R207). -/
def execSealPoint (o : Owner) (s : State) : Out :=
  match s.writingOf o with
  | none => .next s
  | some g =>
    if g.request.isNone then .next s
    else
      match coreOfNum o.val with
      | none => .next (s.sealNow g)
      | some c =>
        if s.canIssue c then
          let s := if g.request = some false then s.modCore c fun k => { k with grace := false } else s
          .next ((s.sealNow g).settlePaddock c)
        else .next s

/-- SEGMENT_RECORD_HANDOVER (12 R327). -/
def execSegmentRecordHandover (segno : BitVec 48) (s : State) : Out :=
  match s.segment segno.toNat with
  | some g => if g.state = .sealed then .next (s.handover g) else .next s
  | none => .next s

/-! ## Marks and the stream -/

/-- The low mark of a ring's free space. -/
def lowMark : Nat := 0x2000000
/-- The mark at which dispatch resumes. -/
def highMark : Nat := 0x4000000

/-- RING_MARK_CROSSING (12 R335, 17 Table 17.6 class 0x13). -/
def execRingMarkCrossing (y : Yard) (s : State) : Out :=
  let free := s.ringFree y
  let mark (hold : Bool) (code : Nat) : State :=
    (s.modYard y fun k => { k with ring := { k.ring with hold := hold } }).log 0x13 0 (yardNum y) code 0
      (BitVec.ofNat 64 free)
  let hold := (s.yard y).ring.hold
  if hold = false ∧ free < lowMark then .next (mark true 0)
  else if hold = true ∧ highMark ≤ free then .next (mark false 1)
  else .next s

/-- Whether the Gate dispatches no new request for sessions homed in a yard (12 R335); one that was dispatched before is not new. -/
def State.ringLow (s : State) (y : Yard) : Bool :=
  decide (s.ringFree y < lowMark) || ((s.yard y).ring.hold && decide (s.ringFree y < highMark))

/-- STREAM_RECORD_COPY (12 R338): the next record of the stream, once its outcome is recorded and there is room. -/
def execStreamRecordCopy (y : Yard) (s : State) : Out :=
  let k := s.yard y
  let d := k.stream
  match k.ring.recs.find? fun e => d.covers e && e.streamEnd.isNone with
  | none => .next s
  | some e =>
    let n := 256 * e.nlines
    if e.settled && e.written && decide (d.prod + n ≤ d.cons + 2 ^ d.log2sz.toNat) then
      let mark (x : RingRec) : RingRec :=
        if x.mine && x.rseq == e.rseq then { x with streamEnd := some (d.prod + n) } else x
      let s := s.emit (.streamWrite y (d.prod % 2 ^ d.log2sz.toNat) (s.ringRead y e.pos e.nlines))
      .next ((s.modYard y fun k => { k with
        ring := { k.ring with recs := k.ring.recs.map mark }
        stream := { k.stream with prod := k.stream.prod + n } }).advanceRing y)
    else .next s

/-- HOST_ACCESS record (17 Table 17.6 class 0x50). -/
def State.logHost (s : State) (unit code : Nat) (v : Word) : State := s.log 0x50 0 unit code 0 v

/-- Whether host accesses reach the module: PCIe up, from ST2 on (13 R341). -/
def State.pcieUp (s : State) : Bool := decide (2 ≤ s.steward.stage) && !s.pins.perst && !s.steward.standby

/-- A write of CONS (12 R339). -/
def State.consWrite (s : State) (y : Yard) (v : Word) : State :=
  let d := (s.yard y).stream
  if !s.pcieUp then s
  else if v.toNat < d.cons ∨ d.prod < v.toNat then s.logHost (yardNum y) 4 v
  else (s.modYard y fun k => { k with stream := { k.stream with cons := v.toNat } }).advanceRing y

/-- STREAM_CONS_WRITE (12 R339). -/
def execStreamConsWrite (y : Yard) (v : Word) (s : State) : Out := .next (s.consWrite y v)

end Sys2Proof.Machine
end

