-- ==== Sys2Proof/Machine/Gate.lean ====
section
/-! DEFINITION. The Gate: queues and doorbells, entry fetch and the session window, dispatch, completion, deadlines, lost cores
and FLR (13 R342–R359, 16 R404–R406, 17 R422). -/

namespace Sys2Proof.Machine

open Sys2Proof

/-! ## Fields of a submission entry (13 Table 13.5) -/

/-- OPC. -/
def entryOpc (e : List Byte) : Nat := fieldLe e 0 1
/-- FLAGS[0], payload by pointer. -/
def entryPtr (e : List Byte) : Bool := (e.getD 1 0).getLsbD 0
/-- SIDX. -/
def entrySidx (e : List Byte) : Nat := fieldLe e 2 2
/-- NENT. -/
def entryNent (e : List Byte) : Nat := fieldLe e 4 2
/-- DLUS. -/
def entryDlus (e : List Byte) : Nat := fieldLe e 6 2
/-- RID. -/
def entryRid (e : List Byte) : Nat := fieldLe e 8 8
/-- PLEN. -/
def entryPlen (e : List Byte) : Nat := fieldLe e 0x10 4

/-- Whether a deadline field is in range: 0, or 10 to 10,000. -/
def deadlineOk (n : Nat) : Bool := n == 0 || (10 ≤ n && n ≤ 10000)

/-- Whether an entry has a known OPC, zero where zero is due, and fields in range (13 Table 13.5, Table 13.7). The upper bound of
a pointer payload is checked at dispatch (13 R353). -/
def entryOk (e : List Byte) : Bool :=
  let opc := entryOpc e
  let ptr := entryPtr e
  let n := entryPlen e
  let zeros := allZero (slice e 0x14 4) && allZero (slice e 0x20 8) && (e.getD 1 0 &&& 0xFE) == 0
    && (ptr || allZero (slice e 0x18 8))
  let nent := if opc = 2 then 1 ≤ entryNent e && entryNent e ≤ 4096 else entryNent e == 0
  let len := if ptr then 1 ≤ n else n ≤ 88
  let ping := opc != 4 || (entrySidx e == 0 && n == 0 && !ptr)
  1 ≤ opc && opc ≤ 4 && zeros && nent && len && ping && deadlineOk (entryDlus e)

/-! ## Completions -/

/-- Device status codes (13 Table 13.7). -/
def stSuccess : Nat := 0
/-- Deadline passed before dispatch. -/
def stExpired : Nat := 1
/-- RID at or below WBASE − 64. -/
def stStale : Nat := 2
/-- Session not open. -/
def stNoSession : Nat := 3
/-- Replica or moving. -/
def stNotPrimary : Nat := 4
/-- Malformed entry. -/
def stBadEntry : Nat := 5
/-- Payload read failed. -/
def stPayload : Nat := 6
/-- Result of a duplicate not available. -/
def stNoResult : Nat := 7
/-- Not run to completion. -/
def stFailed : Nat := 8
/-- Session closed while queued. -/
def stAborted : Nat := 9

/-- A completion as decided, before it is placed in a queue; without an SQ it is discarded. -/
structure Completion where
  rid : Nat
  sidx : Nat
  sq : Option QueueId
  status : Nat
  flags : Nat
  summary : List Byte
  appstat : Byte
  deriving DecidableEq, Repr

/-- Completion flags (13 Table 13.6). -/
def flagDup : Nat := 1
/-- Every segment acknowledged. -/
def flagMirrored : Nat := 2
/-- A batch with fewer segments than entries. -/
def flagPartial : Nat := 4
/-- A segment sealed locally only. -/
def flagLocal : Nat := 8

/-- The bytes of a completion entry (13 Table 13.6). -/
def Completion.bytes (x : Completion) (q : QueueId) (phase : Bool) (sqhead : Nat) : List Byte :=
  let good := x.status = stSuccess
  toLe 8 x.rid ++ (if good then slice x.summary 0 16 else List.replicate 16 0) ++ toLe 1 x.status
    ++ [if good then x.appstat else 0] ++ toLe 2 x.sidx ++ toLe 1 q.val
    ++ toLe 1 (x.flags + (if phase then 0x80 else 0)) ++ toLe 2 sqhead

/-- Whether completions reach host memory: not after a fatal stop (17 R424), and only while the PCIe link is up (18 R432). -/
def State.canComplete (s : State) : Bool := !s.steward.fatal && !s.pins.perst && decide (2 ≤ s.steward.stage)

/-- Writes a completion into the CQ of its SQ and sends its MSI-X message (13 R345); without the queue it is discarded
(R342). -/
def State.writeCompletion (s : State) (x : Completion) : State :=
  match x.sq with
  | none => s
  | some n =>
    let q := s.sqs[n]
    let c := s.cqs[q.cq]
    if q.valid && c.valid && s.canComplete then
      let s := s.emit (.completion q.cq c.tail (x.bytes n c.phase q.head))
      let wrap : Bool := c.tail + 1 == c.size
      let c' := { c with tail := if wrap then 0 else c.tail + 1, phase := c.phase != wrap }
      { s with cqs := s.cqs.set q.cq c' }.sendMsix c.vec
    else s

/-- The outcome ring keeps the last 4,096 entries (14, before R374). -/
def State.addOutcome (s : State) (o : OutcomeEntry) : State :=
  let all := s.outcomes ++ [o]
  { s with outcomes := all.drop (all.length - 4096) }

/-- A completion that is decided without a request: written, and entered in the outcome ring unless SUCCESS; `nent` is NENT
of a batch that was rejected, else 0. -/
def State.answer (s : State) (x : Completion) (nent : Nat) : State :=
  let s := if x.status = stSuccess then s
    else s.addOutcome ⟨BitVec.ofNat 16 x.sidx, BitVec.ofNat 64 x.rid, BitVec.ofNat 8 x.status, BitVec.ofNat 8 x.flags, 0,
      nent != 0, nent, 0, 0⟩
  s.writeCompletion x

/-! ## The window -/

/-- RPTR's value for no record. -/
def noRecord : BitVec 26 := 0x3FFFFFF

/-- The line position that an RPTR entry stands for (13 R350). -/
def fullPos (lastpos : Nat) (e : BitVec 26) : Int :=
  (lastpos : Int) - ((lastpos : Int) - e.toNat) % 2 ^ 26

/-- The window moved up so that `rid` lies within it. -/
def Session.moveUp (x : Session) (rid : Nat) : Session :=
  if x.wbase.toNat < rid then
    let d := rid - x.wbase.toNat
    { x with
      wmap := if d < 64 then x.wmap <<< d else 0
      rptr := x.rptr.mapFinIdx fun i _ _ => if h : d ≤ i ∧ i - d < 64 then x.rptr[i - d] else noRecord
      wbase := BitVec.ofNat 64 rid }
  else x

/-- A completed request entered in its session's window (13 R350); `pos` is its pennant's line position. -/
def Session.enter (x : Session) (rid : Nat) (pos : Option Nat) (lines : Nat) : Session :=
  let x := x.moveUp rid
  let i := x.wbase.toNat - rid
  let x := if h : i < 64 then
      { x with
        wmap := setBit x.wmap i true
        rptr := x.rptr.set i ((pos.map (BitVec.ofNat 26 ·)).getD noRecord) h }
    else x
  { x with
    lastpos := lines % 2 ^ 48
    rptr := x.rptr.map fun e =>
      if e ≠ noRecord ∧ (lines : Int) - fullPos lines e ≥ 2 ^ 25 then noRecord else e }

/-- A completion kept for later queries while its RID stays in the window (14 Table 14.11). -/
def Session.keep (x : Session) (p : PastRequest) : Session :=
  { x with past := (x.past.filter fun q => q.rid != p.rid && decide (x.wbase.toNat < q.rid.toNat + 64)) ++ [p] }

/-- Lines a yard's ring has written since cold start. -/
def State.ringLines (s : State) (y : Yard) : Nat := (s.yard y).ring.lines

/-- The answer to a duplicate: status, summary, APPSTAT and whether the record is acknowledged (13 R352). -/
def State.pennantOf (s : State) (sidx : Nat) (rid : Nat) : Option (List Byte × Bool) :=
  let x := s.session sidx
  let i := x.wbase.toNat - rid
  let e := x.rptr.toList.getD i noRecord
  let pos := fullPos x.lastpos e
  if e = noRecord ∨ pos < 0 then none
  else s.pennantAt (homeOf (BitVec.ofNat 16 sidx)) pos.toNat (BitVec.ofNat 16 sidx) (BitVec.ofNat 64 rid)

/-! ## Completing a request -/

/-- NENT of a batch, 0 for another request. -/
def Request.nent (r : Request) : Nat := if entryOpc r.entry = 2 then entryNent r.entry else 0

/-- MIRRORED, LOCAL and PARTIAL of a request (13 R347, 16 R408), whatever its status is. An entry rejected when it is fetched sealed nothing
and is no request: its completion carries none (DEDUCED, log entry 142). -/
def Request.flags (r : Request) : Nat :=
  (if 0 < r.segs ∧ r.acked = r.segs then flagMirrored else 0) + (if 0 < r.local_ then flagLocal else 0)
    + (if r.segs < r.nent then flagPartial else 0)

/-- A request completes (13 R350, R351; 17 R422): its completion and then one for each entry attached, the window in the same
step where it is SUCCESS, or FAILED after a dispatch. NDONE counts those requests, and NDUP the entries attached to them: Table 13.8 does not
say whether the others count (DEDUCED, log entry 74). -/
def State.finish (s : State) (r : Request) (status : Nat) (cause : Nat) (summary : List Byte) (appstat : Byte) : State :=
  let good : Bool := status == stSuccess
  let counts : Bool := good || (status == stFailed && r.runs != 0)
  let base := r.flags
  let x : Completion := ⟨r.rid.toNat, r.sidx.toNat, r.sq, status, base, summary, appstat⟩
  let s := { s with requests := s.requests.filter (·.id != r.id) }
  let s := if counts then
      s.modSession r.sidx.toNat fun k =>
        let k := { k with ndone := k.ndone + 1, ndup := BitVec.ofNat 16 (min (k.ndup.toNat + r.attached.length) 0xFFFF) }
        if entryOpc r.entry = 3 then k
        else (k.enter r.rid.toNat r.pennant (s.ringLines (homeOf r.sidx))).keep
          ⟨r.rid, decide (1 < r.runs), BitVec.ofNat 16 (status + 256 * appstat.toNat), BitVec.ofNat 8 base, r.segs, r.acked, r.nent != 0⟩
    else s
  let s := if good && r.nent == 0 then s
    else s.addOutcome ⟨r.sidx, r.rid, BitVec.ofNat 8 status, BitVec.ofNat 8 base, BitVec.ofNat 8 cause, r.nent != 0, r.nent,
      r.segs, r.acked⟩
  let s := if status = stFailed then s.log 0x53 0 r.sidx.toNat cause 0 r.rid else s
  let s := s.writeCompletion x
  r.attached.foldl (fun s q => s.writeCompletion { x with sq := q, flags := base + flagDup }) s

/-- Whether a request waits for dispatch or re-dispatch. -/
def Request.queued_ (r : Request) : Bool :=
  match r.phase with
  | .queued => true
  | .returning _ => true
  | _ => false

/-- Whether a request is not dispatched: queued, or waiting for its payload or its return (14 Table 14.10). -/
def Request.waiting (r : Request) : Bool :=
  match r.phase with
  | .payload _ _ => true
  | _ => r.queued_

/-- Whether every segment sealed under a request has its outcome (13 R358). -/
def Request.settledAll (r : Request) : Bool := decide (r.segs ≤ r.acked + r.local_)

/-- A request completed from its last sealed pennant (16 Table 16.3 row 2). -/
def State.finishFromPennant (s : State) (r : Request) : State :=
  match r.pennant.bind fun p => s.pennantAt (homeOf r.sidx) p r.sidx r.rid with
  | some (sum, _) => s.finish r stSuccess 0 (slice sum 0 16) (sum.getD 16 0)
  | none => s.finish r stSuccess 0 (List.replicate 16 0) 0

/-- Whether no core can take a session's requests (17 Table 17.3 cause 0x03): its owner and every other core have EN = 0. -/
def State.noCore (s : State) (r : Request) : Bool :=
  (s.session r.sidx.toNat).owner.val < 96
    && (List.finRange 97).all fun o => o.val == 96 || !(s.entry o).en

/-- REQUEST_COMPLETION (13 R358, 17 R422): a posted request whose segments have their outcomes; a request whose home yard has
failed; a queued request that no core can take. -/
def execRequestCompletion (id : Nat) (s : State) : Out :=
  match s.requests.find? (·.id == id) with
  | none => .next s
  | some r =>
    if s.steward.fatal then .next s
    else if r.phase = .posted ∧ r.settledAll then .next (s.finish r stSuccess 0 r.csum r.appstat)
    else if (s.yard (homeOf r.sidx)).mode = 3 ∧ r.phase ≠ .posted then
      .next (s.finish r stFailed 2 [] 0)
    else if r.queued_ ∧ s.noCore r then .next (s.finish r stFailed 3 [] 0)
    else .next s

/-! ## Queues -/

/-- Whether the Gate serves doorbells and fetches: ST6, no reset under way, no fatal stop. -/
def State.serving (s : State) : Bool :=
  s.steward.stage == 6 && !s.steward.fatal && !s.steward.warmWait && !s.steward.standby

/-- Sets QSTS.ERR of a queue and logs the refused doorbell (13 R344). -/
def State.refuseDoorbell (s : State) (q : QueueId) (v : BitVec 16) : State :=
  { s with qerr := setBit s.qerr q.val true }.logHost q.val 1 (v.setWidth 64)

/-- A tail doorbell (13 R341, R343, R344). -/
def State.tailDoorbell (s : State) (q : QueueId) (v : BitVec 16) : State :=
  let x := s.sqs[q]
  if !s.serving then s
  else if !x.valid || decide (x.size ≤ v.toNat) then s.refuseDoorbell q v
  else
    let n := (v.toNat + x.size - x.tail) % x.size
    { s with sqs := s.sqs.set q { x with tail := v.toNat, stamps := x.stamps ++ List.replicate n s.timer } }

/-- SQ_TAIL_DOORBELL (13 R343). -/
def execSqTailDoorbell (q : QueueId) (v : BitVec 16) (s : State) : Out := .next (s.tailDoorbell q v)

/-- A head doorbell (13 R344, R345). -/
def State.headDoorbell (s : State) (q : QueueId) (v : BitVec 16) : State :=
  let x := s.cqs[q]
  if !s.serving then s
  else if !x.valid || decide (x.size ≤ v.toNat) then s.refuseDoorbell q v
  else { s with cqs := s.cqs.set q { x with head := v.toNat } }

/-- CQ_HEAD_DOORBELL (13 R345). -/
def execCqHeadDoorbell (q : QueueId) (v : BitVec 16) (s : State) : Out := .next (s.headDoorbell q v)

/-- Free entries of a CQ: one fewer than its size, less those written and not yet freed. -/
def Cq.free (c : Cq) : Nat := c.size - 1 - (c.tail + c.size - c.head) % c.size

/-- Entries fetched from the SQs paired with a CQ and not yet completed, attached ones too. -/
def State.outstanding (s : State) (c : QueueId) : Nat :=
  let mine (q : Option QueueId) : Bool := q.any fun q => s.sqs[q].cq == c
  (s.requests.map fun r => (if mine r.sq then 1 else 0) + (r.attached.filter mine).length).sum

/-- QSTS.PAUSED: fetch from SQ q is held for CQ room (13 R346). -/
def State.paused (s : State) (q : QueueId) : Bool :=
  s.sqs[q].valid && decide (s.cqs[s.sqs[q].cq].free ≤ s.outstanding s.sqs[q].cq)

/-- Requests in the Gate's hold list (13 R355). -/
def State.held_ (s : State) : Nat := (s.requests.filter fun r => r.queued_).length

/-- Whether the Gate fetches from an SQ (13 R343, R346, R355). -/
def State.canFetch (s : State) (q : QueueId) : Bool :=
  let x := s.sqs[q]
  s.serving && s.qen && !s.d3hot && x.valid && !x.stopped && x.head != x.tail && !s.paused q && decide (s.held_ < 4096)

/-- The SQ whose turn it is: the next in order of queue number, after the one served last, that the Gate can fetch from (13 R343). The first
turn after a start or an FLR begins at SQ 0 (DESIGN CHOICE, log entry 143). -/
def State.nextSq (s : State) : Option QueueId :=
  ((List.range 64).map fun i => (Fin.ofNat 64 (s.lastSq.val + 1 + i) : QueueId)).find? fun q => s.canFetch q

/-- A request as it is queued. -/
def newRequest (s : State) (q : QueueId) (e : List Byte) (stamp : Word) : Request where
  id := s.nextReq
  sq := some q
  sidx := BitVec.ofNat 16 (entrySidx e)
  rid := BitVec.ofNat 64 (entryRid e)
  entry := e
  deadline :=
    let us := if entryDlus e = 0 then (s.session (entrySidx e)).dldef else entryDlus e
    stamp + BitVec.ofNat 64 (us * 1000)
  phase := .queued
  order := 0
  runs := 0
  losses := 0
  dup := false
  attached := []
  runSegs := 0
  segs := 0
  acked := 0
  local_ := 0
  pennant := none
  csum := []
  appstat := 0

/-- A duplicate answered from the pennant, or NO_RESULT (13 R352). -/
def State.answerDuplicate (s : State) (q : QueueId) (e : List Byte) : State :=
  let sidx := entrySidx e
  let rid := entryRid e
  let s := s.modSession sidx fun k => { k with ndup := bump k.ndup }
  match s.pennantOf sidx rid with
  | some (sum, acked) =>
    s.answer ⟨rid, sidx, some q, stSuccess, flagDup + (if acked then flagMirrored else flagLocal), slice sum 0 16, sum.getD 16 0⟩ 0
  | none => s.answer ⟨rid, sidx, some q, stNoResult, flagDup, [], 0⟩ 0

/-- The request that an entry of a session attaches to: one fetched and not yet completed with the same RID (13 R349 step 1, R351),
SUBMIT_READONLY among them. Where several have it, which only SUBMIT_READONLY can bring about, it is the one fetched first (DESIGN CHOICE,
log entry 144). -/
def State.running (s : State) (sidx rid : Nat) : Option Request :=
  s.requests.find? fun r => r.sidx.toNat == sidx && r.rid.toNat == rid

/-- A fetched entry checked and classified (13 R349, Table 13.7). -/
def State.classify (s : State) (q : QueueId) (e : List Byte) (stamp : Word) : State :=
  let sidx := entrySidx e
  let rid := entryRid e
  let x := s.session sidx
  let reject (status : Nat) : State :=
    s.answer ⟨rid, sidx, some q, status, 0, [], 0⟩ (if entryOpc e = 2 then entryNent e else 0)
  let queue : State := { s with requests := s.requests ++ [newRequest s q e stamp], nextReq := s.nextReq + 1 }
  if !entryOk e then reject stBadEntry
  else if entryOpc e = 4 then s.answer ⟨rid, sidx, some q, stSuccess, 0, [], 0⟩ 0
  else if x.state = 0 then reject stNoSession
  else if x.state ≠ 1 ∨ x.replica then reject stNotPrimary
  else if entryOpc e = 3 then queue
  else
    match s.running sidx rid with
    | some r => { s with requests := s.requests.map fun o =>
        if o.id = r.id then { o with attached := o.attached ++ [some q] } else o }
    | none =>
      if rid + 64 ≤ x.wbase.toNat then reject stStale
      else if rid ≤ x.wbase.toNat ∧ x.wmap.getLsbD (x.wbase.toNat - rid) then s.answerDuplicate q e
      else queue

/-- ENTRY_FETCH (13 R343, R349): the 128 B that host memory answered for the next entry of the SQ whose turn it is. -/
def execEntryFetch (q : QueueId) (entry : List Byte) (s : State) : Out :=
  if s.nextSq = some q then
    let x := s.sqs[q]
    let s := { s with
      sqs := s.sqs.set q { x with head := (x.head + 1) % x.size, stamps := x.stamps.drop 1 }
      lastSq := q }
    .next (s.classify q entry (x.stamps.headD s.timer))
  else .next s

/-! ## Dispatch -/

/-- Owner and number of the dispatch slot a request occupies. -/
def Request.slotOf (r : Request) : Option (Owner × Fin 32) :=
  match r.phase with
  | .payload o n => some (o, n)
  | .offered o n => some (o, n)
  | .taken o n => some (o, n)
  | _ => none

/-- The lowest free slot of an owner (13 R355). -/
def State.freeSlot (s : State) (o : Owner) : Option (Fin 32) :=
  (List.finRange 32).find? fun n =>
    decide (n.val < (s.entry o).nslot) && !s.requests.any fun r => r.slotOf == some (o, n)

/-- The request fetched first of a list (13 R355). -/
def firstFetched (l : List Request) : Option Request :=
  l.foldl (fun best r => match best with
    | none => some r
    | some b => if r.id < b.id then some r else some b) none

/-- Whether a request may be dispatched to an owner: its session not held, and a new one not while its home ring is low (12 R335). -/
def State.dispatchable (s : State) (o : Owner) (r : Request) : Bool :=
  let x := s.session r.sidx.toNat
  r.phase == .queued && x.owner == o && !x.held && (r.runs != 0 || !s.ringLow (homeOf r.sidx))

/-- The request that the Gate dispatches next to an owner: in fetch order, one returned after a loss ahead of every other of its session
(13 R355, 16 R406). -/
def State.nextFor (s : State) (o : Owner) : Option Request :=
  let ready := s.requests.filter (s.dispatchable o)
  (firstFetched ready).map fun r =>
    (firstFetched (ready.filter fun x => x.sidx == r.sidx && x.dup)).getD r

/-- Whether an owner's dispatch in hand awaits its payload: those fetched later are dispatched after it (13 R354, R355). -/
def State.payloadDue (s : State) (o : Owner) : Bool :=
  s.requests.any fun r => match r.phase with
    | .payload p _ => p == o
    | _ => false

/-- Key of byte `off` of an owner's dispatch slot (13 Table 13.10, R354). -/
def slotKey (o : Owner) (n : Nat) (off : Nat) : Nat :=
  match coreOfNum o.val with
  | some c => bankKey c (slotAddr n + off)
  | none => stewardKey (0x3D0000 + 128 * n + off)

/-- Local address of a slot's payload area, and its key (13 R353, R354). -/
def State.payloadAddr (s : State) (o : Owner) (n : Nat) : Nat × Nat :=
  let d := s.entry o
  match coreOfNum o.val with
  | some c => let a := d.pbase * 4096 + n * 2 ^ d.psz; (a, bankKey c a)
  | none => let a := 0x3D1000 + n * 4096; (a, stewardKey a)

/-- Bytes that the Gate writes, tagged BIN. -/
def State.gateWrite (s : State) (key : Nat) (bytes : List Byte) : State :=
  { s with mem := s.mem.put ⟨key, bytes, List.replicate (wordSpan key bytes.length) Tag.bin⟩ }

/-- The descriptor of a request (13 Table 13.10). -/
def descriptor (r : Request) (payload : Nat) : List Byte :=
  slice r.entry 0 0x18 ++ (if entryPtr r.entry then toLe 8 payload else slice r.entry 0x18 8)
    ++ toLe 8 r.deadline.toNat ++ slice r.entry 0x28 88

/-- Steps 2 and 3 of a dispatch (13 R355): the descriptor written and DISPATCH raised. -/
def State.offer (s : State) (r : Request) (o : Owner) (n : Fin 32) : State :=
  let s := s.gateWrite (slotKey o n.val 0) (descriptor r (s.payloadAddr o n.val).1)
  let s := { s.modReq r.id (fun r => { r with phase := .offered o n, order := s.nextOrder, runs := r.runs + 1, runSegs := 0 }) with
    nextOrder := s.nextOrder + 1 }
  if o.val = 96 then s.emit .stewardDispatch else s

/-- Whether a request's deadline has passed; it is not checked again once the request has been dispatched (13 R359). -/
def State.expired (s : State) (r : Request) : Bool := r.runs == 0 && decide (r.deadline ≤ s.timer)

/-- DISPATCH (13 R355, R353, R359). -/
def execDispatch (o : Owner) (s : State) : Out :=
  if !s.serving || !(s.entry o).en || s.payloadDue o then .next s
  else
    match s.nextFor o, s.freeSlot o with
    | some r, some n =>
      if s.expired r then .next (s.finish r stExpired 0 [] 0)
      else if entryPtr r.entry then
        if 2 ^ (s.entry o).psz < entryPlen r.entry then .next (s.finish r stBadEntry 0 [] 0)
        else .next ((s.modReq r.id fun r => { r with phase := .payload o n }).emit (.payloadRead r.id))
      else .next (s.offer r o n)
    | _, _ => .next s

/-- Whether a slot and its payload area hold a request as the owner's entry now stands (13 R353). -/
def State.slotHolds (s : State) (o : Owner) (slot : Fin 32) (r : Request) : Bool :=
  let d := s.entry o
  d.en && decide (slot.val < d.nslot) && decide (entryPlen r.entry ≤ 2 ^ d.psz)

/-- PAYLOAD_ARRIVAL (13 R355): what the host answered to the payload read. Where the owner's entry has been written since and the slot or
its area no longer holds the request, nothing is written and it is queued again (R353; DESIGN CHOICE, log entry 145). Once dispatch has
stopped it does nothing (18 R432). -/
def execPayloadArrival (o : Owner) (slot : Fin 32) (payload : List Byte) (ok : Bool) (s : State) : Out :=
  match s.requests.find? (fun r => r.phase == .payload o slot), s.serving with
  | none, _ => .next s
  | _, false => .next s
  | some r, true =>
    if !ok || payload.length != entryPlen r.entry then .next (s.finish r stPayload 0 [] 0)
    else if s.slotHolds o slot r then .next ((s.gateWrite (s.payloadAddr o slot.val).2 payload).offer r o slot)
    else .next (s.modReq r.id fun r => { r with phase := .queued })

/-- DEADLINE_EXPIRY (13 R359): of a request still held. -/
def execDeadlineExpiry (id : Nat) (s : State) : Out :=
  match s.requests.find? (·.id == id) with
  | none => .next s
  | some r =>
    if r.queued_ ∧ s.expired r ∧ s.steward.fatal = false then .next (s.finish r stExpired 0 [] 0) else .next s

/-! ## Lost cores -/

/-- The core that runs a request, where it has stopped. -/
def State.stoppedCore (s : State) (r : Request) : Option CoreId :=
  match r.phase with
  | .taken o _ => (coreOfNum o.val).bind fun c =>
      match (s.core c).run with
      | .fatal _ _ => some c
      | _ => none
  | _ => none

/-- Whether a request lost with its core is answered from its pennant (16 Table 16.3 row 2). -/
def Request.fromPennant (r : Request) (open_ : Bool) : Bool :=
  entryOpc r.entry == 1 && !open_ && decide (0 < r.segs)

/-- The Gate's decision on a lost request (16 R404, R405): FAILED after a second loss; completed from its pennant once its
segments have their outcomes; else re-dispatched. -/
def State.resolveLost (s : State) (r : Request) : State :=
  match r.phase with
  | .lost o open_ =>
    if 2 ≤ r.losses then s.finish r stFailed 1 [] 0
    else if r.fromPennant open_ then (if r.settledAll then s.finishFromPennant r else s)
    else s.modReq r.id fun r => { r with phase := .returning o, dup := true, runSegs := 0 }
  | _ => s

/-- CORE_LOSS_RESOLUTION (16 R404, R405). -/
def execCoreLossResolution (id : Nat) (s : State) : Out :=
  match s.requests.find? (·.id == id) with
  | none => .next s
  | some r =>
    let s := match s.stoppedCore r with
      | some c => s.loseCore c
      | none => s
    match s.requests.find? (·.id == id) with
    | none => .next s
    | some r => .next (s.resolveLost r)

/-- Sessions of an owner moved to another, the shed of the new owner awake (16 R406, 18 R438). -/
def State.moveSessions (s : State) (src dst : Owner) : State :=
  let s := match coreOfNum dst.val with
    | some c => s.wake (shedOf c)
    | none => s
  (s.sessionsOf src.val).foldl (fun s n => s.modSession n fun x => { x with owner := dst }) s

/-- An owner that can take sessions of another: a core, or the steward, with DT.EN = 1. -/
def State.canOwn (s : State) (gone o : Owner) : Bool := o != gone && (s.entry o).en

/-- The new owner that the steward names in place of one that is lost or retired: its choice, or the lowest-numbered that can be where that
cannot (the spec leaves the choice open: DESIGN CHOICE, log entry 152). -/
def State.newOwner (s : State) (gone choice : Owner) : Option Owner :=
  if s.canOwn gone choice then some choice else (List.finRange 97).find? (s.canOwn gone)

/-- The sessions of an owner moved to its successor, if it has one. -/
def State.moveAway (s : State) (gone choice : Owner) : State :=
  match s.newOwner gone choice with
  | some o => s.moveSessions gone o
  | none => s

/-- Whether an owner is a core that does not run. -/
def State.ownerDown (s : State) (o : Owner) : Bool := (coreOfNum o.val).any fun c => (s.core c).run != .running

/-- REQUEST_RETURN (16 R406): the new owner is named for every session of the lost core, and the request is queued again. A command that
holds the lock of such a session waits for its requests, and so for this one: its lock does not hold the move up (14 R367; DEDUCED, log entry
153). -/
def execRequestReturn (id : Nat) (newOwner : Owner) (s : State) : Out :=
  match s.requests.find? (·.id == id) with
  | none => .next s
  | some r =>
    match r.phase with
    | .returning o =>
      let s := if (s.session r.sidx.toNat).owner = o ∨ s.ownerDown o then s.moveAway o newOwner else s
      .next (s.modReq id fun r => { r with phase := .queued })
    | _ => .next s

/-! ## FLR -/

/-- Every queue deleted, with the completions that would go there discarded, and the BAR0 globals at their reset values (13 R342, 18 Table 18.4). -/
def State.resetHost (s : State) : State :=
  { s with
    sqs := Vector.replicate 64 Sq.none
    cqs := Vector.replicate 64 Cq.none
    qerr := 0
    qen := true
    d3hot := false
    mbvec := 0
    msix := Vector.replicate 64 Msix.reset
    config := []
    lastSq := 63
    requests := s.requests.map fun r => { r with sq := none, attached := r.attached.map fun _ => none } }

/-- A Function Level Reset (13 R342). -/
def State.flr (s : State) : State :=
  { s.resetHost with
    config := s.configFlr
    mailboxes := s.mailboxes.map fun m => if m.owner = 1 then { m with owner := 0 } else m }

/-- FLR (13 R342). -/
def execFlr (s : State) : Out := .next s.flr

end Sys2Proof.Machine
end

