-- ==== Sys2Proof/Machine/Halyard.lean ====
section
/-! DEFINITION. The Halyard ports: frames, sequence and replay, credits, streams and apply, pairing, and the fences that ports
cause (15 R380–R398, R472, R473). -/

namespace Sys2Proof.Machine

open Sys2Proof

/-! ## Ports and where streams run -/

/-- A port. -/
def State.port (s : State) (p : PortId) : Port := s.ports[p]

/-- The module with one port changed. -/
def State.modPort (s : State) (p : PortId) (f : Port → Port) : State := { s with ports := s.ports.set p (f (s.port p)) }

/-- The other port. -/
def otherPort (p : PortId) : PortId := if p = 0 then 1 else 0

/-- The port that carries a stream of its own number. -/
def ownPort : Yard → PortId
  | .a => 0
  | .b => 1

/-- Both yards. -/
def bothYards : List Yard := [.a, .b]

/-- The port that carries a stream (15 R389): its own when paired; else the other when that is paired and does not lead to a
second partner. -/
def State.streamPort (s : State) (y : Yard) : Option PortId :=
  let p := ownPort y
  let q := otherPort p
  if (s.port p).paired then some p
  else if (s.port q).paired && ((s.port p).partner == 0 || (s.port p).partner == (s.port q).partner) then some q
  else none

/-- State of a port as `STATUS` reports it (14 Table 14.8, 15 R395). -/
def Port.code (k : Port) : Nat :=
  if !k.linkUp then 0 else if k.notReady then 1 else if k.paired then 3 else 2

/-! ## Frames -/

/-- Whether one number is before another (15 R383). -/
def before32 (a b : BitVec 32) : Bool := (a - b).getLsbD 31

/-- What a port knows of a stream of its partner. -/
def Port.inOf (k : Port) : Yard → InStream
  | .a => k.inA
  | .b => k.inB

/-- The same changed. -/
def Port.setIn (k : Port) (y : Yard) (v : InStream) : Port :=
  match y with
  | .a => { k with inA := v }
  | .b => { k with inB := v }

/-- A stream of the partner at a port changed, as both ports know it where they lead to the same partner. -/
def State.modIn (s : State) (p : PortId) (y : Yard) (f : InStream → InStream) : State :=
  let v := f ((s.port p).inOf y)
  let q := otherPort p
  let s := if (s.port q).partner = (s.port p).partner then s.modPort q fun k => k.setIn y v else s
  s.modPort p fun k => k.setIn y v

/-- The port whose partner sends a stream here: where records of it were heard, else the one of its own number. -/
def State.sourcePort (s : State) (y : Yard) : PortId :=
  ((List.finRange 2).find? fun p => (s.port p).heard.getLsbD (yardNum y)).getD (ownPort y)

/-- The REFUSE frames of a port that its partner has not acknowledged: LSEQ, flags and ARG. -/
def Port.refusals (k : Port) : List (BitVec 32 × Byte × Word) :=
  (k.replay.filter fun e => e.2.getD 0 0 == 2).map (fun e => (e.1, e.2.getD 1 0, BitVec.ofNat 64 (fieldLe e.2 0x28 8)))
    ++ (k.waiting.filter fun e => e.2.1 == 2).map fun e => (e.1, e.2.2.1, e.2.2.2)

/-- APP of a stream in a frame of a port numbered `lseq`: the present value, but not past a record whose REFUSE is numbered no earlier there, or
awaits its acknowledgement on the other port to the same partner (15 R391, R473). -/
def State.appOn (s : State) (p : PortId) (lseq : BitVec 32) (y : Yard) : Nat :=
  let k := s.port p
  let o := s.port (otherPort p)
  let here := k.refusals.filter fun e => !before32 e.1 lseq
  let there := if o.partner = k.partner then o.refusals else []
  ((here ++ there).filter fun e => e.2.1.getLsbD 0 == (yardNum y == 1)).foldl (fun a e => min a e.2.2.toNat) (k.inOf y).app

/-- The state fields of a frame of a port numbered `lseq`: APPA, APPB, CLIMA, CLIMB (15 Table 15.2). -/
def State.stateFields (s : State) (p : PortId) (lseq : BitVec 32) : List Byte :=
  toLe 8 (s.appOn p lseq .a) ++ toLe 8 (s.appOn p lseq .b) ++ toLe 4 (s.port p).inA.granted.toNat ++ toLe 4 (s.port p).inB.granted.toNat

/-- A frame header without its check (15 Table 15.2). -/
def State.header (s : State) (p : PortId) (type flags : Nat) (lseq : BitVec 32) (len : Nat) (arg : Word) : List Byte :=
  toLe 1 type ++ toLe 1 flags ++ toLe 2 0 ++ toLe 4 lseq.toNat ++ toLe 4 (s.port p).expect.toNat ++ toLe 4 len
    ++ s.stateFields p lseq ++ toLe 8 arg.toNat ++ toLe 12 0

/-- Bytes followed by their CRC-32C (15 R381). -/
def sealed32 (b : List Byte) : List Byte := b ++ toLe 4 (crc32c b).toNat

/-- A frame that is the header alone. -/
def State.shortFrame (s : State) (p : PortId) (type flags : Nat) (lseq : BitVec 32) (arg : Word) : List Byte :=
  sealed32 (s.header p type flags lseq 0 arg)

/-- A DATA frame (15 R380). -/
def State.dataBytes (s : State) (p : PortId) (y : Yard) (lseq : BitVec 32) (rseq : Nat) (record : List Byte) : List Byte :=
  let n := record.length
  sealed32 (sealed32 (s.header p 0x01 (yardNum y) lseq n (BitVec.ofNat 64 rseq)) ++ record
    ++ toLe 4 lseq.toNat ++ toLe 4 n ++ toLe 52 0)

/-- A HELLO frame with this module's serial and next RSEQs (15 Table 15.3). -/
def State.helloBytes (s : State) (p : PortId) : List Byte :=
  sealed32 (sealed32 (s.header p 0x11 0 (s.port p).nextLseq 64 0) ++ toLe 8 Config.serial.toNat
    ++ toLe 8 s.yardA.ring.nextRseq ++ toLe 8 s.yardB.ring.nextRseq ++ toLe 36 0)

/-- A frame sent again under its number carries the current state fields under new checks (15 R385, R386). -/
def State.refresh (s : State) (p : PortId) (lseq : BitVec 32) (b : List Byte) : List Byte :=
  let h := slice b 0 8 ++ toLe 4 (s.port p).expect.toNat ++ slice b 12 4 ++ s.stateFields p lseq ++ slice b 0x28 20
  if b.length ≤ 64 then sealed32 h
  else sealed32 (sealed32 h ++ (b.drop 64).take (b.length - 68))

/-- Sends an unsequenced frame: ACK, with NAK where asked, or NOTREADY. -/
def State.sendShort (s : State) (p : PortId) (type flags : Nat) : State :=
  s.emit (.frame p (s.shortFrame p type flags (s.port p).nextLseq 0))

/-- Sends an ACK (15 R385). -/
def State.sendAck (s : State) (p : PortId) : State := s.sendShort p 0x10 0

/-- Sends an ACK on every paired port. -/
def State.ackAll (s : State) : State :=
  (List.finRange 2).foldl (fun s p => if (s.port p).paired then s.sendAck p else s) s

/-- Sends a HELLO, remembering the NXT values it carried (15 R396). -/
def State.sendHello (s : State) (p : PortId) : State :=
  let s := s.emit (.frame p (s.helloBytes p))
  { s with streamA := { s.streamA with hello := s.yardA.ring.nextRseq }
           streamB := { s.streamB with hello := s.yardB.ring.nextRseq } }

/-! ## Sequenced frames -/

/-- Size of the replay buffer (15 R386). -/
def replayRoom : Nat := 262144

/-- Bytes in a port's replay buffer. -/
def Port.held (k : Port) : Nat := (k.replay.map (·.2.length)).sum

/-- Puts a sequenced frame in the replay buffer and sends it. -/
def State.launch (s : State) (p : PortId) (lseq : BitVec 32) (bytes : List Byte) : State :=
  (s.modPort p fun k => { k with replay := k.replay ++ [(lseq, bytes)] }).emit (.frame p bytes)

/-- Header-only sequenced frames that wait leave in LSEQ order while the buffer has room (15 R386); `fuel` bounds them. -/
def State.flushWaiting (s : State) (p : PortId) : Nat → State
  | 0 => s
  | fuel + 1 =>
    match (s.port p).waiting with
    | [] => s
    | (l, t, f, arg) :: rest =>
      if (s.port p).held + 64 ≤ replayRoom then
        let s := s.modPort p fun k => { k with waiting := rest }
        State.flushWaiting (s.launch p l (s.shortFrame p t.toNat f.toNat l arg)) p fuel
      else s

/-- Calls for a header-only sequenced frame on a paired port: it takes the next LSEQ at once (15 R382, R473). -/
def State.sendSeq (s : State) (p : PortId) (type flags : Nat) (arg : Word) : State :=
  if !(s.port p).paired || (s.port p).notReady then s
  else
    let l := (s.port p).nextLseq
    let s := s.modPort p fun k => { k with
      nextLseq := l + 1, waiting := k.waiting ++ [(l, BitVec.ofNat 8 type, BitVec.ofNat 8 flags, arg)] }
    s.flushWaiting p (s.port p).waiting.length

/-- ARG of EXPORTED and TAKEN (15 Table 15.2). -/
def sessionArg (first count : Nat) : Word := BitVec.ofNat 64 (first + count * 2 ^ 16)

/-- Sends a sequenced frame on every paired port that leads to the partner of one of some ports (15 R397). -/
def State.sendSeqTo (s : State) (to_ : List PortId) (type : Nat) (arg : Word) : State :=
  ((List.finRange 2).filter fun p => to_.any fun q => (s.port q).partner == (s.port p).partner).foldl
    (fun s p => s.sendSeq p type 0 arg) s

/-- The next record a stream has to send: written to the ring and handed over (15 R389, R390). -/
def State.nextRecord (s : State) (y : Yard) : Option RingRec :=
  (s.yard y).ring.recs.find? fun e => e.mine && e.written && !e.settled && decide ((s.stream y).nextSend ≤ e.rseq)

/-- Whether a stream's credits cover a record (15 R388). -/
def MirrorStream.credits (m : MirrorStream) (n : Nat) : Bool :=
  !before32 m.limit (BitVec.ofNat 32 m.used + BitVec.ofNat 32 n)

/-- The record that a port can send now: of a stream it carries, unfenced, with credits, and room in the replay buffer. -/
def State.sendable (s : State) (p : PortId) : Option (Yard × RingRec) :=
  bothYards.findSome? fun y =>
    if s.streamPort y == some p && !(s.stream y).fenced then
      (s.nextRecord y).bind fun e =>
        if (s.stream y).credits e.nlines && decide ((s.port p).held + 256 * e.nlines + 128 ≤ replayRoom) then some (y, e)
        else none
    else none

/-- DATA_FRAME_SEND (15 R382, R388, R389). Sequenced frames leave in LSEQ order, so none that waits is passed. -/
def execDataFrameSend (p : PortId) (s : State) : Out :=
  if !(s.port p).paired || (s.port p).absent || !(s.port p).waiting.isEmpty then .next s
  else
    match s.sendable p with
    | none => .next s
    | some (y, e) =>
      let l := (s.port p).nextLseq
      let bytes := s.dataBytes p y l e.rseq (s.ringRead y e.pos e.nlines)
      let s := s.modPort p fun k => { k with nextLseq := l + 1 }
      let s := s.modStream y fun m => { m with nextSend := e.rseq + 1, used := (m.used + e.nlines) % 2 ^ 32 }
      .next (s.launch p l bytes)

/-! ## Ports up and down -/

/-- PORT_STATE record (17 Table 17.6). -/
def State.logPort (s : State) (p : PortId) (reason : Nat) : State :=
  let c := (s.port p).code
  s.log 0x20 (if c = 0 then 2 else 0) p.val c reason 0

/-- Streams follow their ports: one that moved resends from the partner's APP (15 R390). `was` gives the ports before. -/
def State.moveStreams (s : State) (was : Yard → Option PortId) : State :=
  bothYards.foldl (fun s y =>
    match was y, s.streamPort y with
    | some a, some b => if a = b then s else s.modStream y fun m => { m with nextSend := m.peerApp }
    | _, _ => s) s

/-- Streams that have lost their last port since `was`. -/
def State.leftStreams (s : State) (was : Yard → Option PortId) : List Yard :=
  bothYards.filter fun y => (was y).isSome && (s.streamPort y).isNone

/-- A port lets go of its pairing: its replay buffer is discarded, and its numbers start anew at the next (15 R383, R387). A REFUSE that the
partner has not acknowledged goes to the other port, where it is numbered before any APP passes its record (R473; DEDUCED, log entry 148). -/
def State.unpair (s : State) (p : PortId) : State :=
  let was := s.streamPort
  let due := (s.port p).refusals
  let s := (s.modPort p fun k => { k with
    paired := false, nextLseq := 0, expect := 0, peerAck := 0, replay := [], waiting := [], replays := 0, nakSent := false }).moveStreams was
  if (s.port (otherPort p)).partner = (s.port p).partner then
    due.foldl (fun s e => s.sendSeq (otherPort p) 0x02 e.2.1.toNat e.2.2) s
  else s

/-- Every port sends only NOTREADY until `MIRROR_PAIR` (15 R395). -/
def State.holdPorts (s : State) : State :=
  (List.finRange 2).foldl (fun s p => if (s.port p).paired then s.unpair p else s)
    ((List.finRange 2).foldl (fun s p => s.modPort p fun k => { k with notReady := true }) s)

/-- PORT_DOWN reasons (17 Table 17.6). -/
def downCode : DownReason → Nat
  | .lock => 1
  | .silence => 2
  | .replayLimit => 3

/-- A port goes down (15 R387); a stream left with no port is cut off, and is fenced at ACKTMO (R393, R472). -/
def State.portDown (s : State) (p : PortId) (why : DownReason) : State :=
  if !(s.port p).linkUp then s
  else
    let was := s.streamPort
    let s := s.unpair p
    let s := (s.leftStreams was).foldl (fun s y => s.modStream y fun m => { m with cut := true }) s
    (s.modPort p fun k => { k with linkUp := false, absent := false }).logPort p (downCode why)

/-- PORT_DOWN (15 R387). Silence and the replay limit concern a paired port. -/
def execPortDown (p : PortId) (why : DownReason) (s : State) : Out :=
  .next (if why = .lock || (s.port p).paired then s.portDown p why else s)

/-- PORT_UP (15 R472): training completes. -/
def execPortUp (p : PortId) (s : State) : Out :=
  .next (if (s.port p).linkUp || s.steward.standby || s.steward.stage == 0 then s
    else (s.modPort p fun k => { k with linkUp := true }).logPort p 0)

/-! ## Replay -/

/-- Sends again every frame from the oldest unacknowledged one; the ninth replay from one LSEQ takes the port down instead
(15 R386, R387). -/
def State.replayFrom (s : State) (p : PortId) : State :=
  let k := s.port p
  if k.replay = [] then s
  else if 8 ≤ k.replays then s.portDown p .replayLimit
  else
    let s := s.modPort p fun k => { k with
      replays := k.replays + 1, replay := k.replay.map fun e => (e.1, s.refresh p e.1 e.2) }
    (s.port p).replay.foldl (fun s e => s.emit (.frame p e.2)) s

/-- REPLAY_TIMEOUT (15 R386). -/
def execReplayTimeout (p : PortId) (s : State) : Out := .next (if (s.port p).paired then s.replayFrom p else s)

/-! ## Receiving -/

/-- Little-endian field of a frame. -/
def FrameIn_field (f : FrameIn) (off n : Nat) : Nat := fieldLe f.bytes off n

/-- Whether a check at the end of a byte list holds. -/
def checked32 (b : List Byte) : Bool := (crc32c (b.take (b.length - 4))).toNat == fieldLe b (b.length - 4) 4

/-- Bytes of a frame as its LEN implies them (15 R380). -/
def FrameIn_whole (f : FrameIn) : Nat := 64 + FrameIn_field f 0x0C 4 + (if FrameIn_field f 0 1 = 0x01 then 64 else 0)

/-- Whether a frame is kept (15 R381). A HELLO has its 64 B body (R380). A frame longer than its LEN implies is discarded as a shorter one is
(DESIGN CHOICE, log entry 147). -/
def frameKept (f : FrameIn) : Bool :=
  let n := FrameIn_field f 0x0C 4
  let type := FrameIn_field f 0 1
  let whole := FrameIn_whole f
  !f.codewordBad && decide (64 ≤ f.bytes.length) && checked32 (f.bytes.take 64) && decide (f.bytes.length = whole)
    && (decide (whole = 64) || checked32 f.bytes) && (type != 0x11 || n == 64)
    && (type != 0x01 || (fieldLe f.bytes (64 + n) 4 == FrameIn_field f 4 4 && fieldLe f.bytes (64 + n + 4) 4 == n))

/-- Takes the ACKSEQ of a frame: frames it passes leave the replay buffer (15 R386, R473). -/
def State.takeAckseq (s : State) (p : PortId) (f : FrameIn) : State :=
  let a : BitVec 32 := BitVec.ofNat 32 (FrameIn_field f 8 4)
  let k := s.port p
  if before32 k.peerAck a && !before32 k.nextLseq a then
    let s := s.modPort p fun k => { k with
      peerAck := a, replays := 0, replay := k.replay.filter fun e => !before32 e.1 a }
    s.flushWaiting p (s.port p).waiting.length
  else s

/-- Takes the APP and credit fields of a frame for the streams that its port carries: records of this pairing that APP passes are acknowledged
(15 R392, R394, R473). A REFUSE comes over the port that carries the stream, so only there is it sure to come before an APP that passes the
refused record (DEDUCED, log entry 148). -/
def State.takeState (s : State) (p : PortId) (f : FrameIn) : State :=
  bothYards.foldl (fun s y =>
    if s.streamPort y != some p then s
    else
      let app := FrameIn_field f (0x10 + 8 * yardNum y) 8
      let lim : BitVec 32 := BitVec.ofNat 32 (FrameIn_field f (0x20 + 4 * yardNum y) 4)
      let s := s.modStream y fun m => { m with
        peerApp := max m.peerApp app
        limit := if before32 m.limit lim then lim else m.limit }
      ((s.unsettled y).filter fun e => decide ((s.stream y).start ≤ e.rseq ∧ e.rseq < app)).foldl
        (fun s e => s.settleRec y e.rseq true) s) s

/-- The frame's own event after its port has taken it; none where the port ignores it (15 R395). -/
def State.receive (s : State) (p : PortId) (f : FrameIn) (type : Nat) (body : State → State) : State :=
  let k := s.port p
  if !frameKept f || FrameIn_field f 0 1 != type || !k.paired || k.notReady then s
  else
    let nak : Bool := (f.bytes.getD 1 0).getLsbD 1
    let s := s.takeAckseq p f
    let s := if nak then s.replayFrom p else s
    body s

/-- An unsequenced frame: its state fields count when its LSEQ equals this port's ACKSEQ (15 R473). -/
def State.unsequenced (s : State) (p : PortId) (f : FrameIn) : State :=
  if FrameIn_field f 4 4 = (s.port p).expect.toNat then s.takeState p f else s

/-- A sequenced frame: accepted in LSEQ order, else discarded with an ACK, or with one NAK until the expected frame arrives
(15 R384). -/
def State.sequenced (s : State) (p : PortId) (f : FrameIn) (body : State → State) : State :=
  let l : BitVec 32 := BitVec.ofNat 32 (FrameIn_field f 4 4)
  let k := s.port p
  if l = k.expect then
    let s := s.modPort p fun k => { k with expect := l + 1, nakSent := false }
    (body (s.takeState p f)).ackAll
  else if before32 l k.expect then s.sendAck p
  else if k.nakSent then s
  else (s.modPort p fun k => { k with nakSent := true }).sendShort p 0x10 2

/-! ## Applying the partner's records -/

/-- Header of a record. -/
def recHeader (r : List Byte) : List Byte := slice r 0 64

/-- Whether a record's CRC-64 holds (12 R329). -/
def recordOk (r : List Byte) : Bool :=
  decide (256 ≤ r.length) && fieldLe r (r.length - 8) 8 == (crc64 (r.take (r.length - 8))).toNat

/-- Redo records of a record: line, word mask, tags, data. -/
def redoOf (r : List Byte) : List (Nat × Nat × Nat × List Byte) :=
  (List.range (fieldLe r 6 2)).map fun i =>
    let b := 64 + 80 * i
    (fieldLe r b 8, fieldLe r (b + 12) 1, fieldLe r (b + 8) 4, slice r (b + 16) 64)

/-- A local segment that claims a line is rolled back before a partner's apply to it (12 R325). -/
def State.yieldClaim (s : State) (line : Nat) : State :=
  match (s.yard (yardOf line)).claimOn line with
  | some u => s.rollbackOwed u.segno line
  | none => s

/-- Writes every word that a redo record's WMASK names as a yard write (15 R391 step 2); a tag code that is never stored stands for POISON
(02 Table 2.7; log entry 170). -/
def State.applyRedo (s : State) (x : Nat × Nat × Nat × List Byte) : State :=
  let s := if x.2.1 = 0 then s else s.yieldClaim x.1
  (List.range 8).foldl (fun s w =>
    if x.2.1.testBit w then
      s.yardWrite ⟨x.1 + 8 * w, slice x.2.2.2 (8 * w) 8, [storedTag (BitVec.ofNat 4 (x.2.2.1 / 2 ^ (4 * w)))]⟩
    else s) s

/-- A record applied (15 R391): words, ring, window. R391 counts it as acknowledged for 12 R333 and does not say whether a duplicate answered
from it carries MIRRORED: it does (DESIGN CHOICE, log entry 166). -/
def State.applyRecord (s : State) (y : Yard) (rseq : Nat) (r : List Byte) : State :=
  let sidx := fieldLe r 8 2
  let rid := fieldLe r 0x10 8
  let s := (redoOf r).foldl State.applyRedo s
  let pos := s.ringLines y
  let n := r.length / 256
  let s := s.ringWrite y pos r n
  let e : RingRec := ⟨rseq, pos, n, fieldLe r 0x18 8, BitVec.ofNat 16 sidx, BitVec.ofNat 64 rid, false, true, false, true, none⟩
  let s := s.modYard y fun k => { k with ring := { k.ring with lines := pos + n, recs := k.ring.recs ++ [e] } }
  let s := s.advanceRing y
  s.modSession sidx fun x => x.enter rid (some (pos + n - 1)) (s.ringLines y)

/-- Whether a session is a replica on this module. -/
def State.replica (s : State) (sidx : Nat) : Bool := (s.session sidx).state == 1 && (s.session sidx).replica

/-- Credits of a record given back (15 R388, R390). -/
def State.grant (s : State) (p : PortId) (y : Yard) (n : Nat) : State :=
  s.modIn p y fun m => { m with granted := m.granted + BitVec.ofNat 32 n }

/-- APP moves past a record. -/
def State.passRecord (s : State) (p : PortId) (y : Yard) : State := s.modIn p y fun m => { m with app := m.app + 1 }

/-- A record refused: the REFUSE takes its LSEQ before APP passes the record (15 R391, R473). -/
def State.refuseRecord (s : State) (p : PortId) (y : Yard) (rseq : Nat) (fence : Bool) : State :=
  let s := s.sendSeq p 0x02 (yardNum y + (if fence then 4 else 0)) (BitVec.ofNat 64 rseq)
  s.passRecord p y

/-- A record received in a DATA frame (15 R390, R391). -/
def State.takeRecord (s : State) (p : PortId) (f : FrameIn) : State :=
  let y : Yard := if (f.bytes.getD 1 0).getLsbD 0 then .b else .a
  let rseq := FrameIn_field f 0x28 8
  let r := slice f.bytes 64 (FrameIn_field f 0x0C 4)
  let n := r.length / 256
  let m := (s.port p).inOf y
  let s := s.modPort p fun k => { k with heard := setBit k.heard (yardNum y) true }
  let s := if rseq ≠ m.app then s
    else if m.refuseAll then s.refuseRecord p y rseq false
    else if !recordOk r then (s.refuseRecord p y rseq true).modIn p y fun m => { m with refuseAll := true }
    else if !s.replica (fieldLe r 8 2) then s.refuseRecord p y rseq false
    else (s.applyRecord y rseq r).passRecord p y
  s.grant p y n

/-- DATA_FRAME (15 R384, R390, R391). -/
def execDataFrame (p : PortId) (f : FrameIn) (s : State) : Out :=
  .next (s.receive p f 0x01 fun s => s.sequenced p f fun s => s.takeRecord p f)

/-- A REFUSE from the partner (15 R392, R393). -/
def State.refused (s : State) (f : FrameIn) : State :=
  let y : Yard := if (f.bytes.getD 1 0).getLsbD 0 then .b else .a
  let s := s.settleRec y (FrameIn_field f 0x28 8) false
  if (f.bytes.getD 1 0).getLsbD 2 then s.fence y 2 else s

/-- REFUSE (15 R392). The outcome of the record refused is taken before the frame's APP fields, which may pass it. -/
def execRefuse (p : PortId) (f : FrameIn) (s : State) : Out :=
  .next (s.receive p f 0x02 fun s =>
    let l : BitVec 32 := BitVec.ofNat 32 (FrameIn_field f 4 4)
    let s := if l = (s.port p).expect then s.refused f else s
    s.sequenced p f id)

/-- Sessions that EXPORTED or TAKEN names, which exist here. -/
def State.namedSessions (s : State) (first count : Nat) : List Nat :=
  (s.sessions.map (·.1)).filter fun n =>
    decide (first ≤ n) && (count == 0 || decide (n < first + count)) && (s.session n).state != 0

/-- The sessions of a frame's ARG changed. -/
def State.modNamed (s : State) (f : FrameIn) (g : Session → Session) : State :=
  (s.namedSessions (FrameIn_field f 0x28 2) (FrameIn_field f 0x2A 2)).foldl (fun s n => s.modSession n g) s

/-- EXPORTED (15 R397): takeover of the named replica sessions is allowed. -/
def execExported (p : PortId) (f : FrameIn) (s : State) : Out :=
  .next (s.receive p f 0x03 fun s => s.sequenced p f fun s =>
    s.modNamed f fun x => if x.replica then { x with exported := true } else x)

/-- TAKEN (15 R398): the named sessions become replicas. -/
def execTaken (p : PortId) (f : FrameIn) (s : State) : Out :=
  .next (s.receive p f 0x04 fun s => s.sequenced p f fun s =>
    s.modNamed f fun x => { x with state := 1, replica := true, exported := false })

/-- ACK (15 R385, R473). -/
def execAck (p : PortId) (f : FrameIn) (s : State) : Out :=
  .next (if (f.bytes.getD 1 0).getLsbD 1 then s else s.receive p f 0x10 fun s => s.unsequenced p f)

/-- NAK (15 R386): an ACK frame with FLAGS.NAK. -/
def execNak (p : PortId) (f : FrameIn) (s : State) : Out :=
  .next (if (f.bytes.getD 1 0).getLsbD 1 then s.receive p f 0x10 fun s => s.unsequenced p f else s)

/-! ## Pairing -/

/-- The records handed over before a pairing get the local outcome: the partner's expectation has passed them, and none is sent (15 R394,
01 R11; DEDUCED, log entry 146). -/
def State.dropUnsent (s : State) (y : Yard) : State :=
  ((s.unsettled y).filter fun e => e.written && decide (e.rseq < (s.stream y).hello)).foldl
    (fun s e => s.settleRec y e.rseq false) s

/-- A stream of this module as a pairing of port p sets it (15 R388, R394): credits 768, and nothing sent that the last HELLO sent had passed.
A stream that its ports cut off is fenced at the latest now, unless a `MIRROR_PAIR` lifts the fence. -/
def State.startStream (s : State) (p : PortId) (y : Yard) : State :=
  let lift := s.steward.lift.getLsbD p.val
  let s := if (s.stream y).cut && !lift then s.fence y 3 else s
  (s.dropUnsent y).modStream y fun m => { m with
    fenced := m.fenced && !lift, cut := false, start := m.hello
    used := 0, limit := 768, nextSend := m.hello, peerApp := m.hello }

/-- A stream of the partner as a pairing of port p sets it (15 R388, R391, R394): the expectation from HELLO, logged where it differs from APP;
768 credits granted; and refusals ended. -/
def State.expectStream (s : State) (p : PortId) (y : Yard) (nxt : Nat) : State :=
  let m := (s.port p).inOf y
  let s := if nxt = m.app then s
    else s.log 0x22 2 (yardNum y) (m.app % 2 ^ 32) (m.app / 2 ^ 32) (BitVec.ofNat 64 nxt)
  s.modIn p y fun _ => ⟨nxt, 768, false⟩

/-- The streams of this module that a pairing of a port starts: both, unless the other port leads to a second partner, when the port carries its
own only (15 R389, R394). -/
def State.carried (s : State) (p : PortId) (serial : Word) : List Yard :=
  let q := s.port (otherPort p)
  if q.partner ≠ 0 ∧ q.partner ≠ serial then [if p = 0 then .a else .b] else bothYards

/-- A port pairs with the partner whose HELLO it has accepted (15 R383, R396). Every pairing sets the credits and expectations of both
directions, that of a second port to the same partner too (R388, R394; log entry 97). -/
def State.pair (s : State) (p : PortId) (serial : Word) (nxt : Yard → Nat) : State :=
  let was := s.streamPort
  let s := s.sendHello p
  let s := s.modPort p fun k => { k with
    paired := true, partner := serial, nextLseq := 0, expect := 0, peerAck := 0, replay := [], waiting := [], replays := 0
    nakSent := false, heard := if k.partner = serial then k.heard else 0 }
  let s := bothYards.foldl (fun s y => s.expectStream p y (nxt y)) s
  let s := (s.carried p serial).foldl (fun s y => s.startStream p y) s
  let s := { s with steward := { s.steward with lift := setBit s.steward.lift p.val false } }
  (s.moveStreams was).logPort p 5

/-- Whether a serial is one that PSERIAL accepts (15 R396). -/
def serialOk (pserial serial : Word) : Bool := pserial == 0 || pserial == serial

/-- HELLO (15 R396). On a port that is paired already it only brings its state fields (R473). -/
def execHello (p : PortId) (f : FrameIn) (s : State) : Out :=
  let k := s.port p
  if !frameKept f || FrameIn_field f 0 1 != 0x11 || !k.linkUp then .next s
  else if k.paired then .next ((s.takeAckseq p f).unsequenced p f)
  else
    let serial : Word := BitVec.ofNat 64 (FrameIn_field f 64 8)
    let s := s.modPort p fun k => { k with absent := false }
    if k.inForce && !k.notReady && serialOk k.pserial serial then
      .next (s.pair p serial fun y => FrameIn_field f (72 + 8 * yardNum y) 8)
    else .next s

/-- NOTREADY (15 R393, R395, R473): its fields are taken, and then the partner is absent; a stream that it leaves with no port is fenced. -/
def execNotready (p : PortId) (f : FrameIn) (s : State) : Out :=
  let k := s.port p
  if !frameKept f || FrameIn_field f 0 1 != 0x12 || !k.linkUp then .next s
  else
    let s := if k.paired then (s.takeAckseq p f).unsequenced p f else s
    let t := s.modPort p fun k => { k with absent := true }
    if k.paired then
      let u := (t.unpair p).logPort p 4
      .next ((u.leftStreams t.streamPort).foldl (fun s y => s.fence y 3) u)
    else .next t

/-- ACK_HEARTBEAT (15 R385). -/
def execAckHeartbeat (p : PortId) (s : State) : Out :=
  .next (if (s.port p).paired && !(s.port p).notReady then s.sendAck p else s)

/-- HELLO_TIMER (15 R396): any unpaired port sends one. A port whose partner is absent sends none; without a further NOTREADY by the next tick, which such a
partner sends every 1 µs, it no longer counts as absent. -/
def execHelloTimer (p : PortId) (s : State) : Out :=
  let k := s.port p
  if !k.linkUp || k.paired || k.notReady then .next s
  else if k.absent then .next (s.modPort p fun k => { k with absent := false })
  else .next (s.sendHello p)

/-- NOTREADY_TIMER (15 R395). -/
def execNotreadyTimer (p : PortId) (s : State) : Out :=
  .next (if (s.port p).linkUp && (s.port p).notReady then s.sendShort p 0x12 0 else s)

/-- ACKTMO_EXPIRY (15 R393, R472): the oldest record handed over is not acknowledged in time, or the stream has lost every port; the record
then says so (17 after Table 17.6, reason 3). -/
def execAcktmoExpiry (y : Yard) (s : State) : Out :=
  .next (if (s.stream y).cut then s.fence y 3
    else if (s.unsettled y).any (·.written) then s.fence y 5
    else s)

/-- RESERVED_FRAME_RECEIVED (15 R380): discarded and logged FRAME_DROPPED; a port in NOT-READY ignores it (R395). -/
def execReservedFrameReceived (p : PortId) (f : FrameIn) (s : State) : Out :=
  let type := FrameIn_field f 0 1
  let known : Bool := (1 ≤ type && type ≤ 4) || (0x10 ≤ type && type ≤ 0x12)
  .next (if known || !frameKept f || !(s.port p).linkUp || (s.port p).notReady then s else s.log 0x23 0 p.val type 0 0)

end Sys2Proof.Machine
end

