-- ==== Sys2Proof/Machine/Mailbox.lean ====
section
/-! DEFINITION. Host registers, the eight mailboxes and their protocol over PCIe and SMBus: semaphores, rings, tags, the checks of a
request, locks and responses (13 R341–R345, R360, R361; 14 R362–R371). -/

namespace Sys2Proof.Machine

open Sys2Proof

/-! ## Mailboxes -/

/-- A mailbox. -/
def State.mb (s : State) (m : MboxId) : Mailbox := s.mailboxes[m]

/-- The module with one mailbox changed. -/
def State.modMb (s : State) (m : MboxId) (f : Mailbox → Mailbox) : State :=
  { s with mailboxes := s.mailboxes.set m (f (s.mb m)) }

/-- OWNER of an agent (13 Table 13.12). -/
def agentNum : Agent → BitVec 2
  | .pcie => 1
  | .smbus => 2

/-- Whether an agent reaches a mailbox (13 R341, R361). -/
def State.reaches (s : State) (m : MboxId) : Agent → Bool
  | .pcie => s.pcieUp
  | .smbus => s.smbusUp && m == 0

/-- MBSTS[7:0] (13 Table 13.12). -/
def Mailbox.sts (b : Mailbox) : Nat := (if b.busy then 1 else 0) + (if b.done then 2 else 0) + (if b.ien then 4 else 0)

/-- A byte of a mailbox as it is read (13 Table 13.12). -/
def Mailbox.byteAt (b : Mailbox) (off : Nat) : Byte :=
  if off < 0x100 then b.req.getD off 0
  else if off < 0x200 then b.rsp.getD (off - 0x100) 0
  else if off = 0x208 then b.owner.setWidth 8
  else if 0x210 ≤ off ∧ off < 0x214 then BitVec.ofNat 8 (b.tag.toNat / 256 ^ (off - 0x210))
  else if off = 0x218 then BitVec.ofNat 8 b.sts
  else 0

/-! ## Responses -/

/-- A response of 256 B (14 Table 14.2, R363). -/
def response (status cmd detail : Nat) (tag : BitVec 32) (data : List Byte) : List Byte :=
  toLe 2 status ++ toLe 2 cmd ++ toLe 2 data.length ++ toLe 2 detail ++ toLe 4 tag.toNat ++ toLe 4 0 ++ data
    ++ List.replicate (240 - data.length) 0

/-- A response written, BUSY cleared and DONE set, with the MSI-X message or the SMBus alert (13 R360, R361; 14 R363, R365). -/
def State.deliver (s : State) (m : MboxId) (rsp : List Byte) : State :=
  let s := s.modMb m fun b => { b with
    rsp := rsp, busy := false, done := true, stored := some (b.tag, rsp), started := false, progress := 0 }
  let s := if (s.mb m).ien && s.pcieUp then s.sendMsix (Fin.ofNat 64 s.mbvec.toNat) else s
  if (s.mb m).owner = 2 then { s with steward := { s.steward with smbAlert := true } } else s

/-- CMD of a mailbox's request (14 Table 14.1). -/
def Mailbox.cmd (b : Mailbox) : Nat := fieldLe b.req 0 2

/-- A command ends with a status and DETAIL; only OK carries data (14 R363). -/
def State.respond (s : State) (m : MboxId) (status detail : Nat) (data : List Byte) : State :=
  s.deliver m (response status (s.mb m).cmd detail (s.mb m).tag (if status = 0 then data else []))

/-- Status codes (14 Table 14.3). -/
def rspStarting : Nat := 1
/-- CMD unassigned. -/
def rspBadCommand : Nat := 2
/-- Version not implemented. -/
def rspBadVersion : Nat := 3
/-- Field out of range. -/
def rspBadField : Nat := 4
/-- Object absent. -/
def rspNoObject : Nat := 5
/-- Object in the wrong state. -/
def rspConflict : Nat := 6
/-- Image signature or fuse check failed. -/
def rspAuth : Nat := 8
/-- Partner did not answer. -/
def rspPeer : Nat := 9
/-- A hardware fault ended the command. -/
def rspFault : Nat := 10
/-- A module restart ended the command. -/
def rspAborted : Nat := 11

/-! ## Checks 1 to 4 of a request (14 R364) -/

/-- First stage in which a command is accepted; none for an unassigned code (14 Table 14.4). -/
def firstStage (req : List Byte) : Option Nat :=
  let cmd := fieldLe req 0 2
  if cmd = 0x02 then some 0
  else if cmd = 0x01 ∨ cmd = 0x41 ∨ cmd = 0x90 then some 2
  else if cmd = 0xF0 then some (if fieldLe req 0x10 1 = 0 then 6 else 2)
  else if cmd ∈ [0x03, 0x10, 0x11, 0x12, 0x20, 0x21, 0x30, 0x31, 0x40, 0x42, 0x50, 0x51, 0x60, 0x70, 0x71, 0x80, 0x81, 0x91]
  then some 6
  else none

/-- A parameter field: its offset in REQ, its size and whether it is in range. -/
abbrev FieldCheck := Nat × Nat × Bool

/-- Whether a value is zero or lies in a range. -/
def zeroOr (lo hi v : Nat) : Bool := v == 0 || inRange lo hi v

/-- OWNER of `SESSION_OPEN` (14 Table 14.5). -/
def ownerOk (v : Nat) : Bool := inRange 0 0x60 v || v == 0xFF

/-- Whether a host address is 4 KiB-aligned. -/
def aligned4k (v : Nat) : Bool := v % 4096 == 0

/-- A queue size (14 Table 14.5). -/
def queueSizeOk (v : Nat) : Bool := inRange 16 4096 v && v == 2 ^ Nat.log2 v

/-- The parameter fields of a request with their ranges (14 Table 14.5). -/
def State.fields (s : State) (req : List Byte) : List FieldCheck :=
  let f := fieldLe req
  let fld (off size : Nat) (ok : Nat → Bool) : FieldCheck := (off, size, ok (f off size))
  let any : Nat → Bool := fun _ => true
  let yards := fld 0x10 1 (inRange 1 3)
  match f 0 2 with
  | 0x03 => [fld 0x10 2 (zeroOr 90 170), fld 0x12 1 (zeroOr 50 85), fld 0x13 1 (zeroOr 8 13),
      fld 0x14 2 fun v => zeroOr 400 Config.sclkLimit v && v % 25 == 0, fld 0x16 1 (inRange 0 1)]
  | 0x10 => [fld 0x10 2 any, fld 0x12 1 (inRange 0 1), fld 0x13 1 ownerOk, fld 0x14 2 (inRange 10 10000), fld 0x18 8 any]
  | 0x11 => [fld 0x10 2 any]
  | 0x12 => [fld 0x10 2 any, fld 0x12 1 (inRange 0 1), fld 0x13 1 fun v => if f 0x12 1 = 1 then v == 0 else ownerOk v]
  | 0x20 => [fld 0x10 8 aligned4k, fld 0x18 4 (inRange 512 0x10000000), fld 0x20 12 any]
  | 0x21 => [fld 0x10 8 fun v => aligned4k v && decide (mainBase ≤ v ∧ v < s.journalBase),
      fld 0x18 4 (inRange 1 ((s.journalBase - f 0x10 8) / 4096)), fld 0x1C 1 fun v => v % 4 == 0,
      fld 0x1D 1 fun v => v / 4 % 8 == 0]
  | 0x30 => [fld 0x10 1 (inRange 0 63), fld 0x11 1 (inRange 0 63), fld 0x12 1 (inRange 0 1), fld 0x13 1 (inRange 0 63),
      fld 0x14 2 queueSizeOk, fld 0x16 2 fun v => if f 0x12 1 = 1 then queueSizeOk v else v == 0,
      fld 0x18 8 aligned4k, fld 0x20 8 fun v => if f 0x12 1 = 1 then aligned4k v else v == 0]
  | 0x31 => [fld 0x10 1 (inRange 0 63), fld 0x11 1 (inRange 1 3)]
  | 0x40 => [yards, fld 0x12 2 (inRange 10 10000), fld 0x18 8 any]
  | 0x41 => [yards, fld 0x11 1 (inRange 0 1)]
  | 0x42 => [fld 0x10 2 any, fld 0x12 2 any]
  | 0x50 => [fld 0x10 2 any, fld 0x18 8 any]
  | 0x51 => [fld 0x10 2 any, fld 0x18 8 any]
  | 0x60 => [yards, fld 0x11 1 (inRange 0 1), fld 0x12 1 fun v => if f 0x11 1 = 1 then inRange 24 32 v else v == 0,
      fld 0x18 8 aligned4k, fld 0x20 8 aligned4k]
  | 0x70 => [fld 0x10 1 (inRange 0 95), fld 0x11 1 (inRange 0 1), fld 0x12 1 (inRange 1 7), fld 0x13 1 (inRange 0 127),
      fld 0x14 1 (inRange 0 128)]
  | 0x71 => [yards, fld 0x11 1 (inRange 0 72)]
  | 0x80 => [fld 0x10 1 (inRange 0 95)]
  | 0x81 => [fld 0x10 1 (inRange 0 95)]
  | 0x90 => [fld 0x10 4 any, fld 0x14 1 (inRange 1 7)]
  | 0x91 => [fld 0x18 8 any]
  | 0xF0 => [fld 0x10 1 (inRange 0 2), fld 0x11 1 fun v => if f 0x10 1 = 0 then inRange 0 95 v else v == 0,
      fld 0x12 1 fun v => if f 0x10 1 = 2 then inRange 0 32 v else v == 0]
  | _ => []

/-- REQ offset of the first parameter field that fails: PLEN where it does not cover the last parameter byte, else the lowest
offset of a field out of range or of a non-zero undefined byte (14 R364 step 4, R371). -/
def State.badParam (s : State) (req : List Byte) : Option Nat :=
  let fs := s.fields req
  let last := fs.foldl (fun n x => max n (x.1 + x.2.1)) 0x10
  if 0x10 + fieldLe req 4 2 < last then some 4
  else
    (List.range 240).findSome? fun i =>
      let off := 0x10 + i
      match fs.find? fun x => decide (x.1 ≤ off ∧ off < x.1 + x.2.1) with
      | some x => if x.1 = off ∧ x.2.2 = false then some off else none
      | none => if req.getD off 0 = 0 then none else some off

/-- Commands that only read: `IDENTIFY`, `STATUS`, the two queries and `LOG_READ`. They alone are accepted while a warm reset waits for
acknowledgements (14 R370, 18 R432; DEDUCED, log entry 82). -/
def readsOnly (cmd : Nat) : Bool := [0x01, 0x02, 0x50, 0x51, 0x90].contains cmd

/-- Steps 1 to 4 of the checks: the status and DETAIL of the first that fails (14 R364). -/
def State.checkRequest (s : State) (req : List Byte) : Option (Nat × Nat) :=
  if fieldLe req 2 1 ≠ 1 ∨ fieldLe req 3 1 ≠ 0 then some (rspBadVersion, 0x0100)
  else if 240 < fieldLe req 4 2 then some (rspBadField, 4)
  else if !allZero (slice req 6 10) then some (rspBadField, 6)
  else
    match firstStage req with
    | none => some (rspBadCommand, 0)
    | some n =>
      if s.steward.stage < n ∨ (s.steward.warmWait ∧ !readsOnly (fieldLe req 0 2)) then some (rspStarting, s.steward.stage)
      else (s.badParam req).map fun off => (rspBadField, off)

/-! ## Locks (14 R367, Table 14.4) -/

/-- What a lock guards. -/
inductive LockKind where
  | policy | session | core | page | queue | mirror | yard
  deriving DecidableEq, Repr

/-- A lock on the objects of a kind from `lo` to `hi`. -/
structure Lock where
  kind : LockKind
  lo : Nat
  hi : Nat
  deriving DecidableEq, Repr

/-- Whether two locks have an object in common. -/
def Lock.meets (a b : Lock) : Bool := a.kind == b.kind && decide (a.lo ≤ b.hi ∧ b.lo ≤ a.hi)

/-- A lock on one object. -/
def lockOne (k : LockKind) (n : Nat) : Lock := ⟨k, n, n⟩

/-- Locks on the yards that a mask names. -/
def yardLocks (mask : Nat) : List Lock := (List.range 2).filterMap fun y => if mask.testBit y then some (lockOne .yard y) else none

/-- Last session that `MIRROR_TAKEOVER` names (14 Table 14.5). -/
def lastSession (first count : Nat) : Nat := if count = 0 then 0xFFFF else min 0xFFFF (first + count - 1)

/-- The locks of a request (14 Table 14.4). -/
def State.locks (s : State) (req : List Byte) : List Lock :=
  let f := fieldLe req
  match f 0 2 with
  | 0x03 => [lockOne .policy 0]
  | 0x10 => [lockOne .session (f 0x10 2)]
  | 0x11 => [lockOne .session (f 0x10 2)]
  | 0x12 => [lockOne .session (f 0x10 2)]
  | 0x20 => (List.range 96).filterMap fun c => if (f 0x20 12).testBit c then some (lockOne .core c) else none
  | 0x21 => [⟨.page, f 0x10 8 / 4096, f 0x10 8 / 4096 + f 0x18 4 - 1⟩]
  | 0x30 => [lockOne .queue 0]
  | 0x31 => [lockOne .queue 0]
  | 0x40 => [lockOne .mirror 0]
  | 0x41 => [lockOne .mirror 0]
  | 0x42 => [lockOne .mirror 0, ⟨.session, f 0x10 2, lastSession (f 0x10 2) (f 0x12 2)⟩]
  | 0x60 => yardLocks (f 0x10 1)
  | 0x70 => [lockOne .core (f 0x10 1)]
  | 0x71 => yardLocks (f 0x10 1)
  | 0x80 => lockOne .core (f 0x10 1) :: (s.sessionsOf (f 0x10 1)).map (lockOne .session)
  | 0x81 => [lockOne .core (f 0x10 1)]
  | _ => []

/-- Whether two lists of locks have an object in common. -/
def locksMeet (a b : List Lock) : Bool := a.any fun x => b.any x.meets

/-- Whether the steward has a core in hand: one that has stopped, until it is in paddock or its control store is reloaded (07 R209, 09 R248). -/
def Core.inHand (k : Core) : Bool :=
  match k.run with
  | .fatal _ _ => true
  | .csError _ _ _ _ => true
  | _ => false

/-- Locks that the steward's own actions hold: migrations, rebuilds, marches, and cores that have stopped (14 R367, 18 R446). -/
def State.ownLocks (s : State) : List Lock :=
  s.steward.moves.flatMap (fun x => x.2.2.map (lockOne .session))
    ++ (bothYards.filter fun y => (s.yard y).mode == 2).map (fun y => lockOne .yard (yardNum y))
    ++ s.sheds.toList.filterMap (fun h => h.march.map fun m => lockOne .core m.core.val)
    ++ ((List.finRange 96).filter fun c => (s.core c).inHand).map (fun c => lockOne .core c.val)

/-- Whether a mailbox's command has to wait for one rung before it, or, short of its beginning, for the steward's own action (14 R367). -/
def State.waitsForLock (s : State) (m : MboxId) : Bool :=
  let b := s.mb m
  (!b.started && locksMeet s.ownLocks (s.locks b.req)) || s.mailboxes.toList.any fun o => o.busy && decide (o.ring < b.ring) && locksMeet (s.locks o.req) (s.locks b.req)

/-- Whether a command in progress holds one of some locks, which the steward's own actions take as well (14 R367). -/
def State.lockHeld (s : State) (ls : List Lock) : Bool :=
  s.mailboxes.toList.any fun o => o.busy && o.started && locksMeet (s.locks o.req) ls

/-! ## Ringing -/

/-- A ring (13 R360, 14 R364, R366): a repeated tag is answered with the stored response; a request that fails checks 1 to 4 with
its status; any other waits for the steward. After a fatal stop a ring leaves BUSY set (17 R424). -/
def State.ring (s : State) (m : MboxId) (ag : Agent) : State :=
  let b := s.mb m
  if !s.reaches m ag then s
  else if b.owner ≠ agentNum ag ∨ b.busy then s.logHost m.val 3 1
  else
    let s := { s.modMb m fun b => { b with busy := true, started := false, progress := 0, ring := s.nextRing } with
      nextRing := s.nextRing + 1 }
    if s.steward.fatal then s
    else
      match b.stored with
      | some (tag, rsp) =>
        if tag = b.tag then s.deliver m rsp
        else match s.checkRequest b.req with
          | some (st, detail) => s.respond m st detail []
          | none => s
      | none => match s.checkRequest b.req with
        | some (st, detail) => s.respond m st detail []
        | none => s

/-- MBDB_RING (13 R360). -/
def execMbdbRing (m : MboxId) (ag : Agent) (s : State) : Out := .next (s.ring m ag)

/-- The semaphore taken when free (13 Table 13.12). -/
def State.acquire (s : State) (m : MboxId) (ag : Agent) : State :=
  if s.reaches m ag && (s.mb m).owner == 0 then s.modMb m fun b => { b with owner := agentNum ag } else s

/-- The semaphore freed by its owner (13 Table 13.12). -/
def State.release (s : State) (m : MboxId) (ag : Agent) : State :=
  if s.reaches m ag && (s.mb m).owner == agentNum ag then s.modMb m fun b => { b with owner := 0 } else s

/-- MBSEM_ACQ (13 R360). -/
def execMbsemAcq (m : MboxId) (ag : Agent) (s : State) : Out := .next (s.acquire m ag)

/-- MBSEM_REL (13 R360). -/
def execMbsemRel (m : MboxId) (ag : Agent) (s : State) : Out := .next (s.release m ag)

/-! ## Writes to mailbox registers -/

/-- Whether a write to REQ or MBTAG takes effect: its writer is OWNER and BUSY = 0 (13 R360). -/
def State.mbOpen (s : State) (m : MboxId) (ag : Agent) : Bool := (s.mb m).owner == agentNum ag && !(s.mb m).busy

/-- A byte written to a mailbox register, by its access code (13 Table 13.12). Of one write of MBSEM with REL and ACQ set, REL takes effect
first (DESIGN CHOICE, log entry 150). -/
def State.mbByte (s : State) (m : MboxId) (ag : Agent) (off : Nat) (v : Byte) : State :=
  let ok := s.mbOpen m ag
  if off < 0x100 then (if ok then s.modMb m fun b => { b with req := b.req.set off v } else s)
  else if off = 0x200 then (if v.getLsbD 0 then s.ring m ag else s)
  else if off = 0x208 then
    let s := if v.getLsbD 3 then s.release m ag else s
    if v.getLsbD 2 then s.acquire m ag else s
  else if 0x210 ≤ off ∧ off < 0x214 then
    (if ok then s.modMb m fun b => { b with tag := setField b.tag (8 * (off - 0x210)) 8 v.toNat } else s)
  else if off = 0x218 then
    s.modMb m fun b => { b with done := b.done && !v.getLsbD 1, ien := v.getLsbD 2 }
  else s

/-- Whether an offset is one of REQ or MBTAG (13 Table 13.12). -/
def mbGuarded (off : Nat) : Bool := decide (off < 0x100 ∨ (0x210 ≤ off ∧ off < 0x214))

/-- Bytes written to mailbox registers from an offset on, one by one (log entry 95); that some of REQ or MBTAG did not take effect is logged
once (13 R360). -/
def State.mbWrite (s : State) (m : MboxId) (ag : Agent) (off : Nat) (bytes : List Byte) : State :=
  let r := (List.range bytes.length).foldl
    (fun (x : State × Bool) i =>
      (x.1.mbByte m ag (off + i) (bytes.getD i 0), x.2 || (mbGuarded (off + i) && !x.1.mbOpen m ag))) (s, false)
  if r.2 then r.1.logHost m.val 3 (BitVec.ofNat 64 (leNat (bytes.take 8))) else r.1

/-! ## BAR0, BAR2 and configuration space -/

/-- A domain that has lost more phases than its regulator has to spare (17 R419, Table 17.4). -/
def State.belowRating (s : State) (d : Fin 30) : Bool := decide (2 ≤ (s.steward.lostPhases.filter (·.1 == d)).length)

/-- FAULT_N asserted (17 R421, 18 R430): a DEGRADED condition, a DATA_LOSS or FATAL record since cold start, or a boot image that
failed. -/
def State.faultN (s : State) : Bool :=
  s.cores.toList.any (fun k => k.run == .paddock && !k.retired) || s.yardA.mode != 0 || s.yardB.mode != 0
    || s.ports.toList.any (fun p => p.inForce && !p.paired) || s.streamA.fenced || s.streamB.fenced
    || s.steward.standbyOut || !s.steward.failedHops.isEmpty
    || (List.finRange 30).any (fun d => s.belowRating d)
    || s.steward.dataLoss || s.steward.bootFailed

/-- QSTS of a queue (13 Table 13.4). -/
def State.qsts (s : State) (q : QueueId) : Nat :=
  (if s.sqs[q].valid then 1 else 0) + (if s.cqs[q].valid then 2 else 0) + (if s.qerr.getLsbD q.val then 4 else 0)
    + (if s.paused q then 8 else 0) + s.sqs[q].head * 2 ^ 16

/-- The 8 B of an MSI-X table half-entry (13 Table 13.3): address, then data and mask. -/
def Msix.half (x : Msix) (second : Bool) : Nat :=
  if second then x.data.toNat + (if x.masked then 2 ^ 32 else 0) else x.addr.toNat

/-- What an aligned 8 B read of BAR0 returns (13 Tables 13.3, 13.4, 13.12). -/
def State.bar0Read (s : State) (off : Nat) : Word :=
  let q : QueueId := Fin.ofNat 64 (off / 16)
  BitVec.ofNat 64 <|
    if off = 0 then s.steward.stage + (if s.pins.ready then 8 else 0) + (if s.faultN then 16 else 0)
    else if off = 0x08 then (if s.qen then 1 else 0)
    else if off = 0x10 then Config.partCode.toNat
    else if off = 0x18 then s.mbvec.toNat
    else if off = 0x20 then s.timer.toNat
    else if 0x1000 ≤ off ∧ off < 0x1400 then (if off % 16 = 0 then s.sqs[q].tail else s.cqs[q].head)
    else if 0x2000 ≤ off ∧ off < 0x2400 then (if off % 16 = 0 then s.qsts q else 0)
    else if 0x8000 ≤ off ∧ off < 0xA000 then
      let b := s.mb (Fin.ofNat 8 ((off - 0x8000) / 0x400))
      leNat ((List.range 8).map fun i => b.byteAt (off % 0x400 + i))
    else if 0xC000 ≤ off ∧ off < 0xC400 then s.msix[q].half (off % 16 != 0)
    else if off = 0xD000 then
      (List.finRange 64).foldl (fun t v => t + (if s.msix[v].pending then 2 ^ v.val else 0)) 0
    else 0

/-- A word of a journal-stream descriptor (12 Table 12.6). -/
def StreamDesc.word (d : StreamDesc) (off : Nat) : Word :=
  match off with
  | 0x00 => d.base
  | 0x08 => BitVec.ofNat 64 (d.log2sz.toNat + d.state.toNat * 2 ^ 6)
  | 0x10 => BitVec.ofNat 64 d.prod
  | 0x18 => BitVec.ofNat 64 d.cons
  | 0x20 => BitVec.ofNat 64 d.first
  | _ => 0

/-- What an aligned 8 B read of BAR2 returns (13, after Table 13.4). -/
def State.bar2Read (s : State) (off : Nat) : Word :=
  if 0x1000 ≤ off ∧ off < 0x1040 then s.yardA.stream.word (off - 0x1000)
  else if 0x1040 ≤ off ∧ off < 0x1080 then s.yardB.stream.word (off - 0x1040)
  else 0

/-- Whether an offset of BAR0 holds a register (13 Table 13.3). -/
def bar0Register (off : Nat) : Bool :=
  decide (off < 0x100 ∨ (0x1000 ≤ off ∧ off < 0x1400) ∨ (0x2000 ≤ off ∧ off < 0x2400) ∨ (0x8000 ≤ off ∧ off < 0xA000)
    ∨ (0xC000 ≤ off ∧ off < 0xC400) ∨ (0xD000 ≤ off ∧ off < 0xD008))

/-- UNIT of a HOST_ACCESS record for an offset of BAR0: queue or mailbox (17 Table 17.6). -/
def bar0Unit (off : Nat) : Nat :=
  if 0x1000 ≤ off ∧ off < 0x2400 then off / 16 % 64
  else if 0x8000 ≤ off ∧ off < 0xA000 then (off - 0x8000) / 0x400
  else 0

/-- A write of an MSI-X table entry; unmasking a pending vector sends its message (13 R345). -/
def State.msixWrite (s : State) (v : Fin 64) (off width : Nat) (x : Word) : State :=
  let e := s.msix[v]
  let put (lo n : Nat) (f : Msix → Msix) (e : Msix) : Msix := if off ≤ lo ∧ lo + n ≤ off + width then f e else e
  let part (lo : Nat) : Nat := x.toNat / 2 ^ (8 * (lo - off)) % 2 ^ 32
  let e := put 0 4 (fun e => { e with addr := setField e.addr 0 32 (part 0) }) e
  let e := put 4 4 (fun e => { e with addr := setField e.addr 32 32 (part 4) }) e
  let e := put 8 4 (fun e => { e with data := BitVec.ofNat 32 (part 8) }) e
  let e := put 12 4 (fun e => { e with masked := (part 12).testBit 0 }) e
  { s with msix := s.msix.set v e }.sendPending

/-- A 4 B or 8 B aligned write to a BAR0 register, by its access code (13 Tables 13.3, 13.4). -/
def State.bar0Write (s : State) (off width : Nat) (v : Word) : State :=
  let q : QueueId := Fin.ofNat 64 (off / 16)
  if off = 0x08 then { s with qen := v.getLsbD 0 }
  else if off = 0x18 then { s with mbvec := v.setWidth 6 }
  else if 0x1000 ≤ off ∧ off < 0x1400 then
    (if off % 16 = 0 then s.tailDoorbell q (v.setWidth 16)
      else if off % 16 = 8 then s.headDoorbell q (v.setWidth 16)
      else s)
  else if 0x2000 ≤ off ∧ off < 0x2400 then
    (if off % 16 = 0 ∧ v.getLsbD 2 then { s with qerr := setBit s.qerr q.val false } else s)
  else if 0x8000 ≤ off ∧ off < 0xA000 then
    s.mbWrite (Fin.ofNat 8 ((off - 0x8000) / 0x400)) .pcie (off % 0x400) (toLe width v.toNat)
  else if 0xC000 ≤ off ∧ off < 0xC400 then s.msixWrite q (off % 16) width v
  else s

/-- A host write to BAR0: only 4 B and 8 B aligned accesses reach its registers; any other is ignored and logged
(13, after Table 13.4). -/
def State.hostBar0 (s : State) (off width : Nat) (v : Word) : State :=
  if (width = 4 ∨ width = 8) ∧ off % width = 0 then s.bar0Write off width (if width = 4 then v &&& 0xFFFFFFFF else v)
  else if bar0Register off then s.logHost (bar0Unit off) 2 v
  else s

/-- A host write to BAR2: CONS of the two stream descriptors (12 Table 12.6). -/
def State.hostBar2 (s : State) (off width : Nat) (v : Word) : State :=
  let merged (y : Yard) (lo : Nat) : Word :=
    setField (BitVec.ofNat 64 (s.yard y).stream.cons) (8 * (off - lo)) (8 * width) v.toNat
  if 0x1018 ≤ off ∧ off + width ≤ 0x1020 then s.consWrite .a (merged .a 0x1018)
  else if 0x1058 ≤ off ∧ off + width ≤ 0x1060 then s.consWrite .b (merged .b 0x1058)
  else s

/-- A host write of 1, 2 or 4 bytes to configuration space: device control can start an FLR, and messages that MSI-X control no longer masks
are sent (13 Tables 13.1, 13.2). -/
def State.hostConfig (s : State) (off width : Nat) (v : Word) : State :=
  if (width = 1 ∨ width = 2 ∨ width = 4) ∧ off % 4 + width ≤ 4 ∧ off < 0x1000 then
    let t := (s.configWrite off width v).sendPending
    if off / 4 * 4 = 0x78 ∧ (v.toNat * 2 ^ (8 * (off % 4)) % 2 ^ (8 * (off % 4 + width))).testBit 15 then t.flr else t
  else s

/-- A dispatch-table entry as written (13 Table 13.9): the steward's own keeps PSZ 12 and PBASE zero (R354). -/
def DispEntry.ofWord (o : Owner) (v : Word) : DispEntry :=
  if o.val = 96 then ⟨v.getLsbD 0, getField v 1 6, 12, 0⟩ else ⟨v.getLsbD 0, getField v 1 6, getField v 7 4, getField v 12 7⟩

/-- Whether the Gate accepts an entry with EN = 1 (13 R353); the areas of the steward's own are fixed (R354). -/
def DispEntry.accepted (d : DispEntry) (o : Owner) : Bool :=
  inRange 1 32 d.nslot && (o.val == 96 || (inRange 8 14 d.psz && decide (0x5000 ≤ d.pbase * 4096)
    && decide (d.pbase * 4096 + d.nslot * 2 ^ d.psz ≤ 0x80000)))

/-- The steward writes a dispatch-table entry (13 R353). A core in paddock keeps EN = 0 and takes the new EN at its release
(14 Table 14.6). -/
def State.writeDispatch (s : State) (o : Owner) (v : Word) : State :=
  let d := DispEntry.ofWord o v
  let en := d.en && d.accepted o
  let out := (coreOfNum o.val).filter fun c => (s.core c).run == .paddock
  let s := { s with dispatch := s.dispatch.set o { d with en := en && out.isNone } }
  match out with
  | some c => s.modCore c fun k => { k with savedEn := en }
  | none => s

/-- The steward reads the counts of BANKST into the log and clears them (10 after Table 10.9, 17 Table 17.6 class 0x04). -/
def State.takeBankCounts (s : State) (c : CoreId) : State :=
  (s.log 0x04 1 c.val (s.core c).corr.toNat (s.core c).uncorr.toNat 0).modCore c fun k => { k with corr := 0, uncorr := 0 }

/-- A write that the steward makes to a register of one owner or core. -/
def State.stewardWrite (s : State) (r : RegSpace) (n : Nat) (v : Word) : State :=
  if !s.smbusUp || s.steward.standby || s.steward.fatal then s
  else
    match r with
    | .dispatch => if n < 97 then s.writeDispatch (Fin.ofNat 97 n) v else s
    | .debug => match coreOfNum n with
      | some c => s.modCore c fun k => { k with dbgctl := setBit k.dbgctl 0 (v.getLsbD 0) }
      | none => s
    | .bank => match coreOfNum n with
      | some c => s.takeBankCounts c
      | none => s
    | _ => s

/-- REGISTER_WRITE (00 R5, 13 R341): by the host over PCIe, or by the steward. -/
def execRegisterWrite (r : RegSpace) (off : BitVec 24) (width : Nat) (v : Word) (s : State) : Out :=
  match r with
  | .bar0 => .next (if s.pcieUp then s.hostBar0 off.toNat width v else s)
  | .bar2 => .next (if s.pcieUp then s.hostBar2 off.toNat width v else s)
  | .config => .next (if s.pcieUp then s.hostConfig off.toNat width v else s)
  | _ => .next (s.stewardWrite r off.toNat v)

/-! ## SMBus (13 R361, Table 13.13) -/

/-- Whether an SMBus write is accepted: SMBus answers and its PEC is not wrong. -/
def State.smbAccepts (s : State) (pec : Pec) : Bool := s.smbusUp && pec != .bad

/-- The module with the SMBus access offset changed. -/
def State.setOffset (s : State) (n : Nat) : State := { s with steward := { s.steward with smbOffset := n } }

/-- SMB_SET_OFFSET. One outside the range of Table 13.13, for which it gives no outcome, is ignored (DESIGN CHOICE, log entry 162). -/
def execSmbSetOffset (off : BitVec 16) (pec : Pec) (s : State) : Out :=
  .next (if s.smbAccepts pec && decide (off.toNat ≤ 0x21F) then s.setOffset off.toNat else s)

/-- SMB_BLOCK_TRANSFER. A block that passes the last offset reads zeros there, writes nothing, and lets the offset grow on (DESIGN CHOICE, log
entry 162). -/
def execSmbBlockTransfer (t : SmbTransfer) (pec : Pec) (s : State) : Out :=
  let o := s.steward.smbOffset
  match t with
  | .read n =>
    .next (if s.smbusUp then
        (s.emit (.smbRead ((List.range n).map fun i => (s.mb 0).byteAt (o + i)))).setOffset (o + n)
      else s)
  | .write d => .next (if s.smbAccepts pec then (s.mbWrite 0 .smbus o d).setOffset (o + d.length) else s)

/-- SMB_RING. -/
def execSmbRing (v : Byte) (pec : Pec) (s : State) : Out :=
  .next (if s.smbAccepts pec && v == 1 then s.ring 0 .smbus else s)

/-- SMB_SEMAPHORE. -/
def execSmbSemaphore (t : SmbSem) (pec : Pec) (s : State) : Out :=
  match t with
  | .read => .next (if s.smbusUp then s.emit (.smbRead [(s.mb 0).owner.setWidth 8]) else s)
  | .write v =>
    .next (if !s.smbAccepts pec then s
      else if v = 1 then s.acquire 0 .smbus
      else if v = 2 then s.release 0 .smbus
      else s)

/-- SMB_READ_MBSTS. -/
def execSmbReadMbsts (s : State) : Out :=
  .next (if s.smbusUp then s.emit (.smbRead [BitVec.ofNat 8 (s.mb 0).sts]) else s)

/-- ALERT_RESPONSE: the module answers with its address and releases SMB_ALERT_N. -/
def execAlertResponse (s : State) : Out :=
  .next (if s.smbusUp && s.steward.smbAlert then
      { s with steward := { s.steward with smbAlert := false } }.emit
        (.smbRead [BitVec.ofNat 8 (2 * (0x58 + s.pins.smbAddr.toNat))])
    else s)

end Sys2Proof.Machine
end

