-- ==== Sys2Proof/Machine/Commands.lean ====
section
/-! DEFINITION. The steward's commands: identity and state, policy, sessions, images, keys, queues, mirror, journal streams, march,
scrubber, cores, log, time and restart (14 R368–R373). The two queries are in Query.lean. -/

namespace Sys2Proof.Machine

open Sys2Proof

/-! ## Executing a command -/

/-- The steward begins or continues the command of a mailbox once its locks are free (14 R367); `body` learns whether it
begins. Another command than the one rung, a steward without its clock, or a fatal stop leave everything as it is. -/
def State.command (s : State) (m : MboxId) (cmd : Nat) (kind : List Byte → Bool)
    (body : Bool → List Byte → State → State) : State :=
  let b := s.mb m
  if b.busy && b.cmd == cmd && kind b.req && !s.steward.fatal && s.smbusUp && (!s.steward.warmWait || readsOnly cmd) && !s.waitsForLock m then
    body (!b.started) b.req (s.modMb m fun b => { b with started := true })
  else s

/-- A command whose code alone selects it. -/
def whole : List Byte → Bool := fun _ => true

/-- A parameter byte equal to a value. -/
def byteIs (off v : Nat) (req : List Byte) : Bool := fieldLe req off 1 == v

/-! ## Identity and state -/

/-- Bit map of the cores that satisfy a predicate. -/
def State.coreMap (s : State) (f : Core → Bool) : Nat :=
  (List.finRange 96).foldl (fun t c => t + (if f (s.core c) then 2 ^ c.val else 0)) 0

/-- `IDENTIFY` data (14 Table 14.7). Before ST4 has verified the control stores the microcode versions are zero; the firmware is verified
before any mailbox answers (14 R370; DEDUCED, log entry 151). -/
def State.identity (s : State) : List Byte :=
  let known : Bool := decide (4 ≤ s.steward.stage)
  toLe 4 Config.partCode.toNat ++ toLe 2 Config.revision.toNat ++ toLe 2 0x0100 ++ toLe 8 Config.serial.toNat
    ++ toLe 4 Config.fwVersion.toNat ++ toLe 4 (if known then Config.ucVersion.toNat else 0)
    ++ (List.range 4).flatMap (fun i => toLe 4 (if known then (s.steward.patches.getD i 0).toNat else 0))
    ++ toLe 1 s.steward.fuseLevel ++ toLe 1 s.pins.bootSel.toNat ++ toLe 2 Config.sclkLimit
    ++ toLe 12 (s.coreMap fun k => k.run == .paddock)

/-- IDENTIFY (14 R372). -/
def execIdentify (m : MboxId) (s : State) : Out :=
  .next (s.command m 0x01 whole fun _ _ s => s.respond m 0 0 s.identity)

/-- Upper SCLK limit that policy and part give (18 R441); SCLKMAX 0 stands for the part's limit. -/
def State.sclkMax (s : State) : Nat :=
  if s.steward.policy.sclkmax = 0 then Config.sclkLimit else min Config.sclkLimit s.steward.policy.sclkmax

/-- fmax(s) in MHz for a frequency loss in 0.01 % (18 R441): the highest step of 25 MHz whose voltage is at most 950 mV. In
units of 1/40 mV, V is 24,000 + 5·(f − 400) + 4·loss. -/
def State.fmax (s : State) (loss : Nat) : Nat := min s.sclkMax (400 + (14000 - 4 * loss) / 125 * 25)

/-- fmax of a shed. -/
def State.shedFmax (s : State) (h : ShedId) : Nat := s.fmax s.sheds[h].loss

/-- A shed is throttled while f(s) < fmax(s) (18 R446). -/
def State.throttled (s : State) (h : ShedId) : Bool := !s.sheds[h].retained && decide (s.sheds[h].mhz < s.shedFmax h)

/-- Byte 0x11 of `STATUS` (14 Table 14.8). -/
def State.statusBits (s : State) : Nat :=
  (if s.pins.ready then 1 else 0) + (if s.pins.safe then 2 else 0) + (if s.faultN then 4 else 0)
    + (if s.pins.thermTrip then 8 else 0) + (if s.steward.pairB then 16 else 0)

/-- `STATUS` data (14 Table 14.8); at ST0 and ST1 its first two bytes only. Yard words are zero before ST3 completes (R370). -/
def State.statusData (s : State) : List Byte :=
  let head := toLe 1 s.steward.stage ++ toLe 1 s.statusBits
  if s.steward.stage < 2 then head ++ List.replicate 50 0
  else
    let word (y : Yard) : Nat := if 4 ≤ s.steward.stage then (s.yard y).word.toNat else 0
    head ++ toLe 2 s.steward.power ++ toLe 1 ((s.steward.hottest % 256).toNat)
      ++ toLe 1 (s.cores.toList.filter fun k => k.run != .paddock).length
      ++ toLe 2 ((List.finRange 12).foldl (fun t h => t + (if s.throttled h then 2 ^ h.val else 0)) 0)
      ++ toLe 8 (word .a) ++ toLe 8 (word .b) ++ toLe 8 (s.ringFree .a) ++ toLe 8 (s.ringFree .b)
      ++ toLe 2 ((s.port 0).code + 4 * (s.port 1).code)
      ++ toLe 2 ((if s.streamA.fenced then 1 else 0) + (if s.streamB.fenced then 2 else 0))
      ++ toLe 4 (s.sessions.filter fun e => e.2.state == 1).length ++ toLe 4 (s.steward.nextSeq - 1)

/-- STATUS (14 R372). -/
def execStatus (m : MboxId) (s : State) : Out :=
  .next (s.command m 0x02 whole fun _ _ s => s.respond m 0 0 s.statusData)

/-! ## Policy -/

/-- The policy with the non-zero fields of a request applied (14 Table 14.6). -/
def Policy_apply (p : Policy) (req : List Byte) : Policy :=
  let f := fieldLe req
  let pick (new old : Nat) : Nat := if new = 0 then old else new
  ⟨pick (f 0x10 2) p.pcap, pick (f 0x12 1) p.tcase, pick (f 0x13 1) p.ringlog, pick (f 0x14 2) p.sclkmax⟩

/-- Fields that a request changes, bit per field (18 Table 18.10). -/
def policyMask (req : List Byte) : Nat :=
  let f := fieldLe req
  (if f 0x10 2 = 0 then 0 else 1) + (if f 0x12 1 = 0 then 0 else 2) + (if f 0x13 1 = 0 then 0 else 4)
    + (if f 0x14 2 = 0 then 0 else 8)

/-- The policy in force in the layout of the request (14 Table 14.6). -/
def State.policyData (s : State) : List Byte :=
  let p := s.steward.policy
  toLe 2 p.pcap ++ toLe 1 p.tcase ++ toLe 1 p.ringlog ++ toLe 2 s.sclkMax ++ [0]

/-- SET_POLICY (14 R372, 18 R448, R449). -/
def execSetPolicy (m : MboxId) (s : State) : Out :=
  .next (s.command m 0x03 whole fun _ req s =>
    let p := Policy_apply s.steward.policy req
    let s := { s with steward := { s.steward with policy := p } }.log 0x46 0 0 1 (policyMask req) 0
    let s := if (fieldLe req 0x16 1).testBit 0 then
        { s with steward := { s.steward with policyBlock := some p } }.log 0x46 0 0 2 (policyMask req) 0
      else s
    s.respond m 0 0 s.policyData)

/-! ## Sessions -/

/-- The owner that a request names, or the steward's choice for 0xFF (14 Table 14.5). -/
def namedOwner (req : List Byte) (choice : Owner) : Owner :=
  let v := fieldLe req 0x13 1
  if v = 0xFF then choice else Fin.ofNat 97 v

/-- The shed of an owner awake (18 R438). -/
def State.wakeOwner (s : State) (o : Owner) : State :=
  match coreOfNum o.val with
  | some c => s.wake (shedOf c)
  | none => s

/-- A session context as `SESSION_OPEN` sets it (13 R348, Table 13.8); the counters stay. -/
def Session.open_ (x : Session) (replica : Bool) (o : Owner) (dldef : Nat) (base : Word) (lines : Nat) : Session :=
  { x with
    wbase := base, wmap := 0xFFFFFFFFFFFFFFFF, state := 1, replica := replica, owner := o, dldef := dldef
    lastpos := lines % 2 ^ 48, rptr := Vector.replicate 64 noRecord, exported := false, held := false, past := [] }

/-- SESSION_OPEN (14 R372, 13 R348). -/
def execSessionOpen (m : MboxId) (choice : Owner) (s : State) : Out :=
  .next (s.command m 0x10 whole fun _ req s =>
    let n := fieldLe req 0x10 2
    let o := namedOwner req choice
    let s := s.wakeOwner o
    if (s.session n).state ≠ 0 then s.respond m rspConflict 0x10 []
    else if !(s.entry o).en then s.respond m rspConflict 0x13 []
    else
      let lines := s.ringLines (homeOf (BitVec.ofNat 16 n))
      let s := s.modSession n fun x =>
        x.open_ (fieldLe req 0x12 1 == 1) o (fieldLe req 0x14 2) (BitVec.ofNat 64 (fieldLe req 0x18 8)) lines
      s.respond m 0 0 (toLe 1 o.val))

/-- Requests of a session that are fetched and not completed. -/
def State.requestsOf (s : State) (n : Nat) : List Request := s.requests.filter fun r => r.sidx.toNat == n

/-- SESSION_CLOSE (14 R372): queued requests complete ABORTED, those ever dispatched run to their end (13 R359), then the session is
closed. -/
def execSessionClose (m : MboxId) (s : State) : Out :=
  .next (s.command m 0x11 whole fun _ req s =>
    let n := fieldLe req 0x10 2
    if (s.session n).state = 0 then s.respond m rspNoObject 0x10 []
    else
      let queued := (s.requestsOf n).filter fun r => r.waiting && r.runs == 0
      let s := s.modSession n fun x => { x with state := 2 }
      let s := queued.foldl (fun s r => s.finish r stAborted 0 [] 0) s
      let s := s.modMb m fun b => { b with progress := b.progress + queued.length }
      if (s.requestsOf n).isEmpty then
        (s.modSession n fun x => { x with state := 0, exported := false }).respond m 0 0 (toLe 4 (s.mb m).progress)
      else s)

/-- SESSION_MOVE MODE 0 (14 R372): no request of the session is dispatched until those that run are complete. -/
def execSessionMoveCore (m : MboxId) (choice : Owner) (s : State) : Out :=
  .next (s.command m 0x12 (byteIs 0x12 0) fun first req s =>
    let n := fieldLe req 0x10 2
    let o := namedOwner req choice
    let s := s.wakeOwner o
    if first && (s.session n).state == 0 then s.respond m rspNoObject 0x10 []
    else if first && !(s.entry o).en then s.respond m rspConflict 0x13 []
    else if (s.requestsOf n).all Request.queued_ then
      (s.modSession n fun x => { x with owner := o, held := false }).respond m 0 0 (toLe 1 o.val)
    else s.modSession n fun x => { x with held := true })

/-- Whether a record of a session waits for its outcome. -/
def State.awaitsRecord (s : State) (n : Nat) : Bool :=
  (s.unsettled .a ++ s.unsettled .b).any fun e => e.sidx.toNat == n

/-- SESSION_MOVE MODE 1 (14 R372, 15 Table 15.4): EXPORTED is sent once the session's requests are complete and its records have
their outcomes. -/
def execSessionMoveExport (m : MboxId) (s : State) : Out :=
  .next (s.command m 0x12 (byteIs 0x12 1) fun first req s =>
    let n := fieldLe req 0x10 2
    if first && (s.session n).state == 0 then s.respond m rspNoObject 0x10 []
    else if first && (s.session n).replica then s.respond m rspConflict 0x10 []
    else
      let s := s.modSession n fun x => { x with state := 2 }
      if (s.requestsOf n).isEmpty && !s.awaitsRecord n then
        (s.sendSeqTo (s.streamPort (homeOf (BitVec.ofNat 16 n))).toList 0x03 (sessionArg n 1)).respond m 0 0 (toLe 1 (s.session n).owner.val)
      else s)

/-! ## Images -/

/-- Target cores of `IMAGE_LOAD` (14 Table 14.5). -/
def imageTargets (req : List Byte) : List CoreId := (List.finRange 96).filter fun c => (fieldLe req 0x20 12).testBit c.val

/-- One section of a ledger image (14 Table 14.9). -/
structure Section where
  dest : Nat
  len : Nat
  off : Nat
  tag : Nat
  zeros : Bool
  deriving DecidableEq, Repr

/-- Sections of a ledger image. -/
def imageSections (img : List Byte) : List Section :=
  (List.range (fieldLe img 6 2)).map fun i =>
    let b := 0x100 + 32 * i
    ⟨fieldLe img b 8, fieldLe img (b + 8) 4, fieldLe img (b + 12) 4, fieldLe img (b + 16) 1, allZero (slice img (b + 17) 15)⟩

/-- Whether a section lies in the local bank. -/
def Section.local_ (x : Section) : Bool := decide (x.dest + x.len ≤ 0x80000)

/-- Whether a section is well formed and lies in the local bank or in program memory (14 Table 14.9). -/
def State.sectionOk (s : State) (len : Nat) (x : Section) : Bool :=
  x.zeros && (decide (x.tag ≤ 5) || x.tag == 8) && decide (x.off + x.len ≤ len)
    && (x.local_ || decide (mainBase ≤ x.dest ∧ x.dest + x.len ≤ s.journalBase))

/-- Form of a ledger image (14 Table 14.9). -/
def State.imageForm (s : State) (img : List Byte) : Bool :=
  let n := fieldLe img 6 2
  slice img 0 4 == [0x4C, 0x49, 0x4D, 0x47] && fieldLe img 4 2 == 1 && inRange 1 64 n && allZero (slice img 8 8)
    && allZero (slice img 0x70 144) && decide (0x100 + 32 * n + 96 ≤ img.length)
    && (imageSections img).all (s.sectionOk img.length)

/-- A section written: to the local bank of every target core, or to main memory as a steward write (14 Table 14.9). -/
def State.writeSection (s : State) (targets : List CoreId) (img : List Byte) (x : Section) : State :=
  let data := (img.drop x.off).take x.len
  let tag : Tag := BitVec.ofNat 4 x.tag
  let w (a : Nat) : Write := ⟨a, data, List.replicate (wordSpan a x.len) tag⟩
  if x.local_ then targets.foldl (fun s c => { s with mem := s.mem.put (w (bankKey c x.dest)) }) s
  else s.perform none (w x.dest)

/-- HPCC as `IMAGE_LOAD` sets it: [0, 0x4000) with R and X (14, after Table 14.9). -/
def imageHpcc : Cap := Cap.make 0xA0 0 0 0x4000 0

/-- HDCC as `IMAGE_LOAD` sets it: [0, 0x0120_0000_0000) with every permission and key 0. -/
def imageHdcc : Cap := Cap.make 0xFF 0 0 0x12000000000 0

/-- PUBKEY of a ledger image. -/
def imageKey (img : List Byte) : List Byte := slice img 0x10 96

/-- The first check that a ledger image fails, 0 for none (14 after Table 14.9). -/
def State.imageFailed (s : State) (img : List Byte) : Nat :=
  let n := img.length - 96
  if !s.imageForm img then 1
  else if sha384 (imageKey img) ≠ Config.imageKeyHash then 2
  else if !ecdsa384 (imageKey img) (img.drop n) (img.take n) then 3
  else 0

/-- IMAGE_LOAD (14 R372): `image` is what host memory answers. -/
def execImageLoad (m : MboxId) (image : List Byte) (s : State) : Out :=
  .next (s.command m 0x20 (fun req => fieldLe req 0x18 4 == image.length) fun _ req s =>
    let targets := imageTargets req
    let s := targets.foldl (fun s c => s.wake (shedOf c)) s
    if targets.any fun c => (s.entry (ownerOf c)).en && (s.core c).run != .paddock then s.respond m rspConflict 0x20 []
    else if s.imageFailed image ≠ 0 then s.respond m rspAuth (s.imageFailed image) []
    else
      let s := (imageSections image).foldl (fun s x => s.writeSection targets image x) s
      let s := targets.foldl (fun s c => s.modCore c fun k => { k with hpcc := imageHpcc, hdcc := imageHdcc }) s
      s.respond m 0 0 (toLe 2 (imageSections image).length))

/-! ## Page attributes -/

/-- Attribute byte with the masked fields of `KEY_SET` written (14 Table 14.5). -/
def keyByte (old value mask : Byte) : Byte :=
  let sel : Byte := (if mask.getLsbD 7 then 0x3C else 0) ||| (if mask.getLsbD 6 then 0x40 else 0)
    ||| (if mask.getLsbD 5 then 0x80 else 0)
  ((old &&& ~~~sel) ||| (value &&& sel)) &&& ~~~(mask &&& 0x03)

/-- Whether a segment holds a claim in a page. -/
def State.claimedPage (s : State) (page : Nat) : Bool :=
  (s.yardA.claims ++ s.yardB.claims).any fun u => pageOf u.line == page

/-- Writes one page's attribute byte and drops its entry from every key cache (02 R44, 11 R301, R309). -/
def State.keyPage (s : State) (page : Nat) (value mask : Byte) : State :=
  let new := keyByte (s.mem.byte (attrAddr page)) value mask
  let drop (h : Shed) : Shed := { h with keyCache := h.keyCache.filter fun e => e.1 != page }
  { s with
    refChg := s.refChg.filter fun r => !(r.1 == page && mask.getLsbD (if r.2 then 0 else 1))
    sheds := s.sheds.map drop }.putAttr page new

/-- Writes pages upwards, stopping before one whose JRN bit changes while a segment claims a line of it (12 R326); answers the
pages left. -/
def State.keyRun (value mask : Byte) : Nat → Nat → State → State × Nat
  | 0, _, s => (s, 0)
  | n + 1, page, s =>
    let old := s.mem.byte (attrAddr page)
    if attrJrn (keyByte old value mask) != attrJrn old && s.claimedPage page then (s, n + 1)
    else State.keyRun value mask n (page + 1) (s.keyPage page value mask)

/-- Every core's buffered stores performed. -/
def State.drainCores (s : State) : State := (List.finRange 96).foldl (fun s c => s.drainAll c) s

/-- KEY_SET (14 R372, 02 R44, 12 R326). -/
def execKeySet (m : MboxId) (s : State) : Out :=
  .next (s.command m 0x21 whole fun _ req s =>
    let n := fieldLe req 0x18 4
    let done := (s.mb m).progress
    let r := State.keyRun (BitVec.ofNat 8 (fieldLe req 0x1C 1)) (BitVec.ofNat 8 (fieldLe req 0x1D 1)) (n - done)
      (pageOf (fieldLe req 0x10 8) + done) s
    if r.2 = 0 then r.1.drainCores.respond m 0 0 (toLe 4 n)
    else r.1.modMb m fun b => { b with progress := n - r.2 })

/-! ## Queues -/

/-- QUEUE_CREATE (14 R372). -/
def execQueueCreate (m : MboxId) (s : State) : Out :=
  .next (s.command m 0x30 whole fun _ req s =>
    let f := fieldLe req
    let q : QueueId := Fin.ofNat 64 (f 0x10 1)
    let c : QueueId := Fin.ofNat 64 (f 0x11 1)
    let new : Bool := f 0x12 1 == 1
    if !new && !s.cqs[c].valid then s.respond m rspNoObject 0x11 []
    else if s.sqs[q].valid then s.respond m rspConflict 0x10 []
    else if new && s.cqs[c].valid then s.respond m rspConflict 0x11 []
    else
      let s := if new then
          { s with cqs := s.cqs.set c ⟨true, Fin.ofNat 64 (f 0x13 1), BitVec.ofNat 64 (f 0x20 8), f 0x16 2, 0, 0, true⟩ }
        else s
      { s with sqs := s.sqs.set q ⟨true, c, BitVec.ofNat 64 (f 0x18 8), f 0x14 2, 0, 0, [], false⟩ }.respond m 0 0 [])

/-- Whether a request came from an SQ, itself or attached. -/
def State.fetchedFrom (s : State) (q : QueueId) : Bool := s.requests.any fun r => r.sq == some q || r.attached.contains (some q)

/-- Whether an SQ other than one being deleted is paired with a CQ. -/
def State.pairedSq (s : State) (c : QueueId) (gone : Option QueueId) : Bool :=
  (List.finRange 64).any fun q => s.sqs[q].valid && s.sqs[q].cq == c && gone != some q

/-- QUEUE_DELETE of an SQ (14 R372): its fetched requests complete first. With the CQ named too, the CQ's part follows. -/
def execQueueDeleteSq (m : MboxId) (s : State) : Out :=
  .next (s.command m 0x31 (fun req => (fieldLe req 0x11 1).testBit 0) fun first req s =>
    let q : QueueId := Fin.ofNat 64 (fieldLe req 0x10 1)
    let both := (fieldLe req 0x11 1).testBit 1
    if (s.mb m).progress ≠ 0 then s
    else if first && (!s.sqs[q].valid || (both && !s.cqs[q].valid)) then s.respond m rspNoObject 0x10 []
    else if first && both && s.pairedSq q (some q) then s.respond m rspConflict 0x10 []
    else
      let s := { s with sqs := s.sqs.set q { s.sqs[q] with stopped := true } }
      if s.fetchedFrom q then s
      else
        let s := { s with sqs := s.sqs.set q Sq.none }
        if both then s.modMb m fun b => { b with progress := 1 } else s.respond m 0 0 [])

/-- QUEUE_DELETE of a CQ (14 R372), after the SQ's part where both are named. -/
def execQueueDeleteCq (m : MboxId) (s : State) : Out :=
  .next (s.command m 0x31 (fun req => (fieldLe req 0x11 1).testBit 1 && (!(fieldLe req 0x11 1).testBit 0 || (s.mb m).progress != 0))
    fun _ req s =>
      let q : QueueId := Fin.ofNat 64 (fieldLe req 0x10 1)
      if !s.cqs[q].valid then s.respond m rspNoObject 0x10 []
      else if s.pairedSq q none then s.respond m rspConflict 0x10 []
      else { s with cqs := s.cqs.set q Cq.none }.respond m 0 0 [])

/-! ## Mirror -/

/-- Ports that a mask names. -/
def namedPorts (mask : Nat) : List PortId := (List.finRange 2).filter fun p => mask.testBit p.val

/-- Yards that a mask names. -/
def namedYards (mask : Nat) : List Yard := bothYards.filter fun y => mask.testBit (yardNum y)

/-- `MIRROR_PAIR` in force for the ports named (15 R395, R396): they leave NOT-READY, and a pairing of theirs that follows lifts the fences
(R393); a paired port pairs anew with a stream fenced, or where PSERIAL rejects its partner. -/
def State.beginPair (s : State) (req : List Byte) : State :=
  let anew := s.streamA.fenced || s.streamB.fenced || s.streamA.cut || s.streamB.cut
  let serial : Word := BitVec.ofNat 64 (fieldLe req 0x18 8)
  let s := { s with steward := { s.steward with acktmo := fieldLe req 0x12 2 } }
  (namedPorts (fieldLe req 0x10 1)).foldl (fun s p =>
    let s := s.modPort p fun k => { k with inForce := true, pserial := serial, notReady := false }
    let s := if (s.port p).paired && (anew || !serialOk serial (s.port p).partner) then s.unpair p else s
    { s with steward := { s.steward with lift := setBit s.steward.lift p.val (!(s.port p).paired) } }) s

/-- Mask of the named ports that are paired. -/
def State.pairedMask (s : State) (mask : Nat) : Nat :=
  (namedPorts mask).foldl (fun t p => t + (if (s.port p).paired then 2 ^ p.val else 0)) 0

/-- MIRROR_PAIR (15 R396): OK once a named port has paired. -/
def execMirrorPair (m : MboxId) (s : State) : Out :=
  .next (s.command m 0x40 whole fun first req s =>
    let s := if first then s.beginPair req else s
    match (namedPorts (fieldLe req 0x10 1)).find? fun p => (s.port p).paired with
    | some p => s.respond m 0 0 (toLe 8 (s.port p).partner.toNat ++ toLe 1 (s.pairedMask (fieldLe req 0x10 1)))
    | none => s)

/-- MIRROR_PAIR_TIMEOUT (15 R396): none of the named ports has paired within 100 ms of the command's start. -/
def execMirrorPairTimeout (m : MboxId) (s : State) : Out :=
  .next (s.command m 0x40 (fun req => (s.mb m).started && s.pairedMask (fieldLe req 0x10 1) == 0) fun _ req s =>
    s.respond m rspPeer (fieldLe req 0x10 1) [])

/-- MIRROR_FENCE (14 R372, 15 R393, R395): before ST5 recorded, to be applied there. -/
def execMirrorFence (m : MboxId) (s : State) : Out :=
  .next (s.command m 0x41 whole fun _ req s =>
    let mask := fieldLe req 0x10 1
    let hold : Bool := fieldLe req 0x11 1 == 1
    let s := if s.steward.stage < 5 then
        { s with steward := { s.steward with
          fencesDue := s.steward.fencesDue ||| BitVec.ofNat 2 mask, holdDue := s.steward.holdDue || hold } }
      else
        let s := (namedYards mask).foldl (fun s y => s.fence y 1) s
        if hold then s.holdPorts else s
    s.respond m 0 0 [])

/-- Whether every port to the partner whose stream of a yard is applied here is down (15 R397): its port, and one that leads to the same
partner. -/
def State.linksDown (s : State) (y : Yard) : Bool :=
  let p := s.sourcePort y
  let q := otherPort p
  !(s.port p).linkUp && (!(s.port q).linkUp || ((s.port p).partner != 0 && (s.port p).partner != (s.port q).partner))

/-- Whether `MIRROR_TAKEOVER` accepts a replica session (15 R397). -/
def State.mayTake (s : State) (n : Nat) : Bool :=
  let y := homeOf (BitVec.ofNat 16 n)
  (s.stream y).fenced || s.linksDown y || (s.session n).exported

/-- MIRROR_TAKEOVER (15 R397): every replica session named has to be acceptable. Records are applied as they arrive, so none is
left to apply. -/
def execMirrorTakeover (m : MboxId) (s : State) : Out :=
  .next (s.command m 0x42 whole fun _ req s =>
    let first := fieldLe req 0x10 2
    let count := fieldLe req 0x12 2
    let named := s.namedSessions first count
    let reps := named.filter s.replica
    if named.isEmpty then s.respond m rspNoObject 0x10 []
    else if reps.isEmpty || !reps.all s.mayTake then s.respond m rspConflict 0x10 []
    else
      let s := reps.foldl (fun s n => s.modSession n fun x => { x with replica := false, exported := false }) s
      (s.sendSeqTo (reps.map fun m => s.sourcePort (homeOf (BitVec.ofNat 16 m))) 0x04 (sessionArg first count)).respond m 0 0 (toLe 4 reps.length ++ toLe 4 0 ++ toLe 8 0))

/-! ## Journal streams -/

/-- JOURNAL_STREAM, start (12 R338, R339). -/
def execJournalStreamStart (m : MboxId) (s : State) : Out :=
  .next (s.command m 0x60 (byteIs 0x11 1) fun _ req s =>
    let ys := namedYards (fieldLe req 0x10 1)
    if ys.any fun y => (s.yard y).stream.state == 1 then s.respond m rspConflict 0x10 []
    else
      let s := ys.foldl (fun s y => s.modYard y fun k => { k with stream :=
        ⟨BitVec.ofNat 64 (fieldLe req (if y = .a then 0x18 else 0x20) 8), BitVec.ofNat 6 (fieldLe req 0x12 1), 1, 0, 0,
          k.ring.nextRseq⟩ }) s
      s.respond m 0 0 [])

/-- JOURNAL_STREAM, stop (14 R372). -/
def execJournalStreamStop (m : MboxId) (s : State) : Out :=
  .next (s.command m 0x60 (byteIs 0x11 0) fun _ req s =>
    let s := (namedYards (fieldLe req 0x10 1)).foldl (fun s y =>
      (s.modYard y fun k => { k with stream := { k.stream with state := 0 } }).advanceRing y) s
    s.respond m 0 0 [])

/-! ## March and scrubber -/

/-- The core that a request names at an offset. -/
def namedCore (req : List Byte) (off : Nat) : CoreId := Fin.ofNat 96 (fieldLe req off 1)

/-- Stripes of `MARCH_RUN` (14 Table 14.5). -/
def marchStripes (req : List Byte) : List Nat :=
  let first := fieldLe req 0x13 1
  let count := fieldLe req 0x14 1
  (List.range 128).filter fun n => decide (first ≤ n) && (count == 0 || decide (n < first + count))

/-- Rows of a bank that a march over stripes finds failed, ascending. -/
def marchRows (stripes : List Nat) (failed : List (BitVec 14)) : List Nat :=
  stripes.flatMap fun n => ((List.range 128).map (128 * n + ·)).filter fun r => failed.any (·.toNat == r)

/-- Whether the request's ARRAYS names an array: 0 the bank, 1 the control store, 2 L1. -/
def marchArray (req : List Byte) (n : Nat) : Bool := (fieldLe req 0x12 1).testBit n

/-- Response of `MARCH_RUN` (14 Table 14.6). -/
def State.marchDone (s : State) (m : MboxId) (c : CoreId) (rows : Nat) : State :=
  s.respond m 0 0 (toLe 2 rows ++ toLe 1 (min (s.core c).spareMap.length 32) ++ toLe 1 (s.core c).unrepaired.length)

/-- The march that `MARCH_RUN` names: the bank's failed rows repaired, and the rows of the other arrays counted with them. The march engine
of the shed is free (10 R274). -/
def State.marchRun (s : State) (m : MboxId) (c : CoreId) (req : List Byte) (found : MarchReport) (after : State → State) : State :=
  if s.sheds[shedOf c].march.isSome then s
  else
    let bank := marchArray req 0
    let rows := if bank then marchRows (marchStripes req) found.rows else []
    let others := if marchArray req 1 || marchArray req 2 then found.others else 0
    (after (s.march c (if bank then found.spares else []) rows)).marchDone m c (rows.length + others)

/-- MARCH_RUN, preserving (10 R274, R276; 14 Table 14.6). -/
def execMarchRunPreserving (m : MboxId) (found : MarchReport) (s : State) : Out :=
  .next (s.command m 0x70 (byteIs 0x11 0) fun _ req s =>
    let c := namedCore req 0x10
    let s := s.wake (shedOf c)
    let out := (s.core c).run != .paddock
    if out && (marchStripes req).any (decide <| · < 4) then s.respond m rspConflict 0x13 []
    else if out && (marchArray req 1 || marchArray req 2) then s.respond m rspConflict 0x10 []
    else s.marchRun m c req found id)

/-- A bank's stripe initialised: data zero, tag UNINIT (10 R273). -/
def Memory.clearRange (mem : Memory) (lo n : Nat) : Memory :=
  { data := mem.data.filter fun e => decide (e.1 < lo ∨ lo + n ≤ e.1)
    tags := mem.tags.filter fun e => decide (8 * e.1 < lo ∨ lo + n ≤ 8 * e.1) }

/-- What a destructive march leaves of the arrays it names (10 R273): bank stripes initialised, a control store that holds no microcode, L1
caches without a line. -/
def State.marchOut (s : State) (c : CoreId) (req : List Byte) : State :=
  let s := if marchArray req 0 then
      { s with mem := (marchStripes req).foldl (fun mem n => mem.clearRange (bankKey c (4096 * n)) 4096) s.mem }
    else s
  let s := if marchArray req 1 then s.modCore c fun k => { k with cs := none } else s
  if marchArray req 2 then { s with l1d := s.l1d.filter fun e => e.1 != c, l1i := s.l1i.filter fun e => e.1 != c } else s

/-- MARCH_RUN, destructive (10 R273; 14 Table 14.6). -/
def execMarchRunDestructive (m : MboxId) (found : MarchReport) (s : State) : Out :=
  .next (s.command m 0x70 (byteIs 0x11 1) fun _ req s =>
    let c := namedCore req 0x10
    let s := s.wake (shedOf c)
    if (s.core c).run ≠ .paddock then s.respond m rspConflict 0x10 []
    else s.marchRun m c req found fun s => s.marchOut c req)

/-- SCRUB_CTL (11 R304; 14 Table 14.6). -/
def execScrubCtl (m : MboxId) (s : State) : Out :=
  .next (s.command m 0x71 whole fun _ req s =>
    let s := (namedYards (fieldLe req 0x10 1)).foldl (fun s y =>
      s.modYard y fun k => { k with sweepHours := fieldLe req 0x11 1 }) s
    s.respond m 0 0 (toLe 8 s.yardA.scrubbed ++ toLe 8 s.yardB.scrubbed ++ toLe 8 s.yardA.corrections
      ++ toLe 8 s.yardB.corrections))

/-! ## Cores -/

/-- A core taken out of service: DT.EN := 0, its sessions moved to another core, its request re-dispatched, the core in paddock
(14 Table 14.6). With no other core in service its sessions stay where they are (DESIGN CHOICE, log entry 152). -/
def State.retireCore (s : State) (c : CoreId) (choice : Owner) : State :=
  (s.moveAway (ownerOf c) choice).toPaddock c

/-- CORE_RETIRE (14 R372, 12 Table 12.5). -/
def execCoreRetire (m : MboxId) (choice : Owner) (s : State) : Out :=
  .next (s.command m 0x80 whole fun _ req s =>
    let c := namedCore req 0x10
    let s := s.wake (shedOf c)
    if (s.core c).run = .paddock then s.respond m rspConflict 0x10 []
    else
      let n := (s.sessionsOf c.val).length
      let t := s.retireCore c choice
      let t := t.modCore c fun k => { k with retired := true }
      t.respond m 0 0 (toLe 2 (n - (t.sessionsOf c.val).length)))

/-- CORE_RELEASE (09 R255, 07 R211), which waits for a march of the core that is in hand (10 R276, 14 R367): the merged image is loaded and read back, and loaded once more where it differs; `first` and `second`
are the bits that do not take. A store that fails ends the command with its CS_ERROR record. -/
def execCoreRelease (m : MboxId) (first second : List (BitVec 13 × BitVec 136)) (s : State) : Out :=
  .next (s.command m 0x81 whole fun _ req s =>
    let c := namedCore req 0x10
    let s := s.wake (shedOf c)
    let k := s.core c
    if k.run ≠ .paddock ∨ k.unrepaired ≠ [] then s.respond m rspConflict 0x10 []
    else
      let s := s.loadTwice c first second
      match s.badWord c (second.map (·.1)) with
      | some a =>
        let s := s.csLog c s.timer a ((s.core c).wordGroups a) false 3
        s.respond m rspFault ((s.steward.nextSeq - 1) % 2 ^ 16) []
      | none => ((s.setEn c k.savedEn).enterVector0 c .paddockRelease).respond m 0 0 [])

/-! ## Log and time -/

/-- The bytes of a log record (17 Table 17.5). -/
def LogRec.bytes (r : LogRec) : List Byte :=
  toLe 4 r.seq ++ [r.cls, r.sev] ++ toLe 2 r.unit.toNat ++ toLe 8 r.time.toNat ++ toLe 4 r.code.toNat ++ toLe 4 r.aux.toNat
    ++ toLe 8 r.addr.toNat

/-- LOG_READ (17 R425): DETAIL is the count of records. -/
def execLogRead (m : MboxId) (s : State) : Out :=
  .next (s.command m 0x90 whole fun _ req s =>
    let rs := (s.steward.log.filter fun r => decide (fieldLe req 0x10 4 ≤ r.seq)).take (fieldLe req 0x14 1)
    s.respond m 0 rs.length (rs.flatMap LogRec.bytes))

/-- TIME_SET (14 R372, 02 R26): the deadlines of queued and held requests move by the step. -/
def execTimeSet (m : MboxId) (s : State) : Out :=
  .next (s.command m 0x91 whole fun _ req s =>
    let v : Word := BitVec.ofNat 64 (fieldLe req 0x18 8)
    let d := v - s.timer
    let s := { s with
      timer := v
      steward := { s.steward with agedAt := s.steward.agedAt.map (· + d) }
      requests := s.requests.map fun (r : Request) => if r.waiting then { r with deadline := r.deadline + d } else r }
    s.respond m 0 0 [])

/-! ## Restart -/

/-- RESTART of a core (14 R372, 12 Table 12.5, 16 R406): a lost request is returned after its sessions have a new owner. The control store
is loaded anew (18 Table 18.4). -/
def execRestartCore (m : MboxId) (choice : Owner) (s : State) : Out :=
  .next (s.command m 0xF0 (byteIs 0x10 0) fun _ req s =>
    let c := namedCore req 0x11
    let s := s.wake (shedOf c)
    if (s.core c).run = .paddock then s.respond m rspConflict 0x11 []
    else
      let lost := s.requests.any fun r => (r.takenBy c.val).isSome || r.untakenAt == some c.val
      let s := if lost then s.moveAway (ownerOf c) choice else s
      let s := s.modCore c fun k => k.loadCs s.imageCs []
      (s.enterVector0 c .restartCommand).respond m 0 0 [])

/-- Every other command in progress ends RESET_ABORTED (14 R368). -/
def State.abortOthers (s : State) (keep : Option MboxId) : State :=
  (List.finRange 8).foldl (fun s m => if (s.mb m).busy && keep != some m then s.respond m rspAborted 0 [] else s) s

/-- A module RESTART accepted: its response is posted, and the reset follows (14 R373). -/
def State.restartModule (s : State) (m : MboxId) (k : PendingReset) : State :=
  let s := s.respond m 0 0 []
  { s with steward := { s.steward with pendingReset := some k } }

/-- RESTART of the module, warm (14 R368, R373). -/
def execRestartWarm (m : MboxId) (s : State) : Out :=
  .next (s.command m 0xF0 (byteIs 0x10 1) fun _ _ s => (s.abortOthers (some m)).restartModule m .warm)

/-- Whether the boot image and every container in flash that passes checks 1 to 3 carry a level (14 R373). -/
def State.levelsReach (s : State) (containers : List Container) (n : Nat) : Bool :=
  decide (n ≤ s.steward.imageLevel) && containers.all fun c => !Container_signed c || decide (n ≤ Container_level c)

/-- RESTART of the module, cold (14 R368, R373), with the containers in flash: every other command ends first, whatever the checks say. -/
def execRestartCold (m : MboxId) (containers : List (List Byte)) (s : State) : Out :=
  .next (s.command m 0xF0 (byteIs 0x10 2) fun _ req s =>
    let n := fieldLe req 0x12 1
    let s := s.abortOthers (some m)
    if n = 0 then s.restartModule m .cold
    else if n ≤ s.steward.fuseLevel then s.respond m rspAuth 1 []
    else if !s.levelsReach containers n then s.respond m rspAuth 2 []
    else { s with steward := { s.steward with fuseLevel := n } }.restartModule m .cold)

end Sys2Proof.Machine
end

