-- ==== Sys2Proof/Machine/Decimal.lean ====
section
/-! DEFINITION. Packed and zoned fields and the decimal group (05 R132–R150). -/

namespace Sys2Proof.Machine

open Sys2Proof

/-! ## Rounding -/

/-- A magnitude num / den rounded once to an integer under FPCTL.RM (02 Table 2.4); `neg` is the sign of the value. -/
def roundDiv (rm : Nat) (neg : Bool) (num den : Nat) : Nat :=
  let q := num / den
  let r := num % den
  let up := match rm with
    | 1 => decide (den ≤ 2 * r)
    | 2 => false
    | 3 => decide (r ≠ 0) && !neg
    | 4 => decide (r ≠ 0) && neg
    | _ => decide (den < 2 * r) || (decide (den = 2 * r) && q % 2 == 1)
  if up then q + 1 else q

/-- FPCTL.RM. -/
def Core.rm (k : Core) : Nat := getField k.fpctl 0 3

/-! ## Fields -/

/-- High nibble. -/
def hiNib (b : Byte) : Nat := b.toNat / 16
/-- Low nibble. -/
def loNib (b : Byte) : Nat := b.toNat % 16

/-- Whether a sign code of 05 Table 5.2 is a minus code. -/
def minusCode (n : Nat) : Bool := n == 0xB || n == 0xD

/-- A field is invalid at a byte, with the sub-cause of 07 R189. -/
structure BadByte where
  pos : Nat
  sub : Nat
  deriving DecidableEq, Repr

/-- First invalid byte of a field whose byte i has sub-cause `f i` (0 when valid), in ascending order (05 R149). -/
def firstBad (n : Nat) (f : Nat → Nat) : Option BadByte :=
  ((List.range n).find? fun i => f i != 0).map fun i => ⟨i, f i⟩

/-- Number with decimal digits, most significant first. -/
def ofDigits (ds : List Nat) : Nat := ds.foldl (fun a d => a * 10 + d) 0

/-- Digit i of n, most significant first. -/
def digitAt (m n i : Nat) : Nat := m / 10 ^ (n - 1 - i) % 10

/-- Digits of a packed field (05 Table 5.1). -/
def packedDigits (bs : List Byte) : List Nat :=
  (bs.flatMap fun b => [hiNib b, loNib b]).dropLast

/-- Value of a packed field, or its first invalid byte (05 R132, R133, R149). -/
def packedValue (bs : List Byte) : Except BadByte Int :=
  let l := bs.length
  let bad (i : Nat) : Nat :=
    let b := bs.getD i 0
    if 9 < hiNib b then 1
    else if i + 1 = l then (if loNib b ≤ 9 then 2 else 0)
    else if 9 < loNib b then 1 else 0
  match firstBad l bad with
  | some e => .error e
  | none =>
    let m := ofDigits (packedDigits bs)
    .ok (if minusCode (loNib (bs.getD (l - 1) 0)) then -(m : Int) else m)

/-- How a zoned field is laid out (05 Table 5.3). -/
inductive Zoned where
  | embedded
  | leading
  | trailing
  | unsigned
  deriving DecidableEq, Repr

/-- The variant of a two-bit SGN option. -/
def Zoned.ofSgn (n : Nat) : Zoned :=
  match n with
  | 0 => .embedded
  | 1 => .leading
  | 2 => .trailing
  | _ => .unsigned

/-- Position of a separate sign character in a field of l bytes. -/
def Zoned.signPos (z : Zoned) (l : Nat) : Option Nat :=
  match z with
  | .leading => some 0
  | .trailing => some (l - 1)
  | _ => none

/-- Digit positions of a zoned field of l bytes. -/
def Zoned.digitPos (z : Zoned) (l : Nat) : List Nat :=
  match z with
  | .leading => (List.range l).drop 1
  | .trailing => List.range (l - 1)
  | _ => List.range l

/-- Sub-cause of byte i of a zoned field, 0 when valid (05 R136, R149). -/
def Zoned.bad (z : Zoned) (rlx : Bool) (zn : Nat) (bs : List Byte) (i : Nat) : Nat :=
  let l := bs.length
  let b := bs.getD i 0
  if z.signPos l = some i then (if b = 0x2B ∨ b = 0x20 ∨ b = 0x2D then 0 else 4)
  else if 9 < loNib b then 1
  else if z = .embedded ∧ i + 1 = l then (if hiNib b ≤ 9 ∧ hiNib b ≠ zn then 2 else 0)
  else if rlx ∨ hiNib b = zn then 0 else 3

/-- Whether a valid zoned field carries a minus sign (05 R136). -/
def Zoned.minus (z : Zoned) (bs : List Byte) : Bool :=
  let l := bs.length
  match z with
  | .embedded => minusCode (hiNib (bs.getD (l - 1) 0))
  | .unsigned => false
  | _ => bs.getD ((z.signPos l).getD 0) 0 == 0x2D

/-- Value of a zoned field, or its first invalid byte. -/
def zonedValue (z : Zoned) (rlx : Bool) (zn : Nat) (bs : List Byte) : Except BadByte Int :=
  match firstBad bs.length (z.bad rlx zn bs) with
  | some e => .error e
  | none =>
    let m := ofDigits ((z.digitPos bs.length).map fun i => loNib (bs.getD i 0))
    .ok (if z.minus bs then -(m : Int) else m)

/-- A result reduced to n digits (05 R139): magnitude kept, overflow, sign. -/
structure Reduced where
  m : Nat
  v : Bool
  neg : Bool
  deriving DecidableEq, Repr

/-- Reduces a result to n digits (05 R139). -/
def reduce (n : Nat) (x : Int) : Reduced :=
  let m := x.natAbs % 10 ^ n
  ⟨m, decide (10 ^ n ≤ x.natAbs), decide (x < 0) && m != 0⟩

/-- Bytes of nibbles, high first. -/
def nibBytes : List Nat → List Byte
  | h :: l :: t => BitVec.ofNat 8 (h * 16 + l) :: nibBytes t
  | _ => []

/-- A packed field of l bytes with a sign code (05 Table 5.1). -/
def packedBytes (l m sign : Nat) : List Byte :=
  nibBytes ((List.range (2 * l - 1)).map (digitAt m (2 * l - 1)) ++ [sign])

/-- A packed field with the preferred sign of a reduced result. -/
def Reduced.packed (r : Reduced) (l : Nat) : List Byte := packedBytes l r.m (if r.neg then 0xD else 0xC)

/-- Digits a zoned field of l bytes holds. -/
def Zoned.digits (z : Zoned) (l : Nat) : Nat := (z.digitPos l).length

/-- A zoned field of l bytes with a reduced result (05 R137). -/
def Reduced.zoned (r : Reduced) (z : Zoned) (zn l : Nat) : List Byte :=
  let ds := (List.range (z.digits l)).map (digitAt r.m (z.digits l))
  let sign : Byte := if r.neg then 0x2D else 0x2B
  match z with
  | .leading => sign :: ds.map fun d => BitVec.ofNat 8 (zn * 16 + d)
  | .trailing => (ds.map fun d => BitVec.ofNat 8 (zn * 16 + d)) ++ [sign]
  | .unsigned => ds.map fun d => BitVec.ofNat 8 (zn * 16 + d)
  | .embedded =>
    (ds.dropLast.map fun d => BitVec.ofNat 8 (zn * 16 + d))
      ++ [BitVec.ofNat 8 ((if r.neg then 0xD else 0xC) * 16 + ds.getLastD 0)]

/-- Decimal condition of a value: EQ, LO or HI (05 Table 5.7). -/
def signClass (x : Int) : Nat := if x = 0 then 0 else if x < 0 then 1 else 2

/-- Decimal condition of a reduced result. -/
def Reduced.cls (r : Reduced) : Nat := if r.m = 0 then 0 else if r.neg then 1 else 2

/-! ## Shapes -/

/-- L1 of the raw field (03 Table 3.7). -/
def rawL1 (w : L64) : Nat := getField w.sc 11 5 + 1
/-- L2 of the raw field. -/
def rawL2 (w : L64) : Nat := getField w.sc 6 5 + 1
/-- Options of the raw field. -/
def rawOpt (w : L64) : Nat := getField w.sc 0 6

/-- Field operand A. -/
def fieldA (s : State) (c : CoreId) (w : L64) : Opd := s.resolve c 0 w.sa 1
/-- Field operand B. -/
def fieldB (s : State) (c : CoreId) (w : L64) : Opd := s.resolve c 1 w.sb 1

/-- Bytes of a field operand. -/
def State.field (s : State) (c : CoreId) (o : Opd) (l : Nat) : List Byte := s.bytesSeen c o.addr l

/-- DECIMAL_DATA of an operand (05 R149). -/
def dataExc (opc : Nat) (o : Opd) (e : BadByte) : ExcOperand :=
  operandExc o.n 9 (opc + e.sub * 1024) (match o.place with
    | .mem _ a => a + e.pos
    | _ => 0)

/-- Value of a packed field operand, or DECIMAL_DATA. -/
def State.packed (s : State) (c : CoreId) (opc : Nat) (o : Opd) (l : Nat) : Except Stop Int :=
  match packedValue (s.field c o l) with
  | .ok v => .ok v
  | .error e => .error (.exc (dataExc opc o e) s)

/-- Value of a zoned field operand, or DECIMAL_DATA. -/
def State.zonedOf (s : State) (c : CoreId) (opc : Nat) (z : Zoned) (rlx : Bool) (o : Opd) (l : Nat) : Except Stop Int :=
  match zonedValue z rlx (s.core c).zn.toNat (s.field c o l) with
  | .ok v => .ok v
  | .error e => .error (.exc (dataExc opc o e) s)

/-- Writes a field with its tag. -/
def State.putField (s : State) (c : CoreId) (o : Opd) (bs : List Byte) (t : Tag) : Except Stop State :=
  s.writeMem c o.n ⟨o.addr, bs, tagsFor o.addr bs.length t⟩

/-- FLAGS.DCC and V. -/
def State.decFlags (s : State) (c : CoreId) (dcc : Nat) (v : Option Bool) : State :=
  s.modCore c fun k =>
    let f := setDcc k.flags dcc
    { k with flags := match v with
      | some b => setBit f 2 b
      | none => f }

/-- Completion: flags, cursors, and DECIMAL_OVERFLOW after it under DOVE (05 R150). -/
def State.decDone (s : State) (c : CoreId) (opc dcc : Nat) (v : Bool) (os : List Opd) : Except Stop Done :=
  .ok { s := (s.decFlags c dcc (some v)).updateCursors c os
        after := if v && (s.core c).dove then some (opExc 10 opc 0 0) else none }

/-- Fields A and B with both lengths; A is read where `rdA`. -/
def fieldUses (c : CoreId) (w : L64) (rdA : Bool) (clsA clsB : Cls) (wtag : Tag) (s : State) : List Use :=
  [(fieldA s c w).use rdA true (rawL1 w) clsA wtag, (fieldB s c w).use true false (rawL2 w) clsB Tag.bin]

/-- Roles w, m, r with the options that must be zero. -/
def encWMR (zero : L64 → Bool) (range : L64 → Option (Nat × Nat)) : Enc := { a := .w, b := .m, c := .raw, zero, range }

/-- put(A, x) for a packed A, with its flags (05 R139, Table 5.7). -/
def State.putPacked (s : State) (c : CoreId) (opc : Nat) (o : Opd) (l : Nat) (x : Int) (os : List Opd) : Except Stop Done := do
  let r := reduce (2 * l - 1) x
  let t ← s.putField c o (r.packed l) Tag.pdec
  t.decDone c opc r.cls r.v os

/-- A := f A B on packed fields (05 Table 5.5). -/
def decThree (opc : Nat) (f : Int → Int → Int) (c : CoreId) (w : L64) (s : State) : Out :=
  .next (s.issueL c opc 8 (encWMR (fun w => rawOpt w == 0) fun _ => none) w (fieldUses c w true .pdec .pdec Tag.pdec)
    (fun s => do
      let x ← s.packed c opc (fieldA s c w) (rawL1 w)
      let y ← s.packed c opc (fieldB s c w) (rawL2 w)
      s.putPacked c opc (fieldA s c w) (rawL1 w) (f x y) [fieldA s c w, fieldB s c w]))

/-! ## Instructions -/

/-- `DADD` (05 R140). -/
def execDadd (c : CoreId) (w : L64) (s : State) : Out := decThree 0x100 (· + ·) c w s
/-- `DSUB` (05 R140). -/
def execDsub (c : CoreId) (w : L64) (s : State) : Out := decThree 0x101 (· - ·) c w s
/-- `DMUL` (05 R140). -/
def execDmul (c : CoreId) (w : L64) (s : State) : Out := decThree 0x102 (· * ·) c w s

/-- Result of `DDIV`: the quotient with its rounding digit, or the remainder (05 R141). -/
def decDivide (rem : Bool) (rd : Nat) (a b : Int) : Int :=
  let x := a.natAbs
  let y := b.natAbs
  if rem then
    let r : Int := (x % y : Nat)
    if a < 0 then -r else r
  else
    let q : Int := ((x * 10 / y + rd) / 10 : Nat)
    if decide (a < 0) != decide (b < 0) then -q else q

/-- `DDIV` (05 R141). A zero divisor or a quotient too long is a fault of the division and of neither operand: CAUSE.OPND is 0b11 (07 R188;
DESIGN CHOICE, log entry 132). -/
def execDdiv (c : CoreId) (w : L64) (s : State) : Out :=
  let rd := rawOpt w % 16
  let rem := (rawOpt w).testBit 4
  let l := rawL1 w
  .next (s.issueL c 0x103 8 (encWMR (fun w => rawOpt w < 32 && (!rem || rd == 0)) fun _ => if 9 < rd then some (2, 0xA) else none) w
    (fieldUses c w true .pdec .pdec Tag.pdec)
    (fun s => do
      let a ← s.packed c 0x103 (fieldA s c w) l
      let b ← s.packed c 0x103 (fieldB s c w) (rawL2 w)
      if b = 0 then .error (.exc (opExc 11 0x103 1 0) s)
      let x := decDivide rem rd a b
      if 10 ^ (2 * l - 1) ≤ x.natAbs then .error (.exc (opExc 11 0x103 2 0) s)
      s.putPacked c 0x103 (fieldA s c w) l x [fieldA s c w, fieldB s c w]))

/-- `DMOV` (05 R140). -/
def execDmov (c : CoreId) (w : L64) (s : State) : Out :=
  .next (s.issueL c 0x104 8 (encWMR (fun w => rawOpt w == 0) fun _ => none) w (fieldUses c w false .pdec .pdec Tag.pdec)
    (fun s => do
      let y ← s.packed c 0x104 (fieldB s c w) (rawL2 w)
      s.putPacked c 0x104 (fieldA s c w) (rawL1 w) y [fieldA s c w, fieldB s c w]))

/-- `DMOVU` (05 R143): the magnitude with sign 0xF. -/
def execDmovu (c : CoreId) (w : L64) (s : State) : Out :=
  .next (s.issueL c 0x105 8 (encWMR (fun w => rawOpt w == 0) fun _ => none) w (fieldUses c w false .pdec .pdec Tag.pdec)
    (fun s => do
      let y ← s.packed c 0x105 (fieldB s c w) (rawL2 w)
      let r := reduce (2 * rawL1 w - 1) y.natAbs
      let t ← s.putField c (fieldA s c w) (packedBytes (rawL1 w) r.m 0xF) Tag.pdec
      t.decDone c 0x105 r.cls r.v [fieldA s c w, fieldB s c w]))

/-- `DCMP` (05 R140): DCC only. -/
def execDcmp (c : CoreId) (w : L64) (s : State) : Out :=
  .next (s.issueL c 0x106 8 { a := .m, b := .m, c := .raw, zero := fun w => rawOpt w == 0 } w
    (fun s => [(fieldA s c w).use true false (rawL1 w) .pdec Tag.bin, (fieldB s c w).use true false (rawL2 w) .pdec Tag.bin])
    (fun s => do
      let x ← s.packed c 0x106 (fieldA s c w) (rawL1 w)
      let y ← s.packed c 0x106 (fieldB s c w) (rawL2 w)
      done ((s.decFlags c (signClass (x - y)) none).updateCursors c [fieldA s c w, fieldB s c w])))

/-- Scaling of `DSRD` by 10^n under a rounding mode (05 R142). -/
def decScale (rm : Nat) (n : Int) (b : Int) : Int :=
  if 0 ≤ n then b * 10 ^ n.toNat
  else
    let m : Int := roundDiv rm (decide (b < 0)) b.natAbs (10 ^ (-n).toNat)
    if b < 0 then -m else m

/-- `DSRD` (05 R142). -/
def execDsrd (c : CoreId) (w : L64) (s : State) : Out :=
  .next (s.issueL c 0x107 8 (encWMR (fun _ => true) fun _ => none) w (fieldUses c w false .pdec .pdec Tag.pdec)
    (fun s => do
      let y ← s.packed c 0x107 (fieldB s c w) (rawL2 w)
      let n := (BitVec.ofNat 6 (rawOpt w)).toInt
      s.putPacked c 0x107 (fieldA s c w) (rawL1 w) (decScale (s.core c).rm n y) [fieldA s c w, fieldB s c w]))

/-- Roles of `DTOB` and `DTOBW`. -/
def encToB (wide : Bool) : Enc :=
  { a := .d, b := .m, c := .raw, wideA := wide, zero := fun w => rawL1 w == 1 && rawOpt w == 0 }

/-- `DTOB` and `DTOBW`: a two's-complement integer of n bytes (05 Table 5.5). -/
def decToBin (opc n : Nat) (c : CoreId) (w : L64) (s : State) : Out :=
  let dst (s : State) := s.resolve c 0 w.sa n
  .next (s.issueL c opc 8 (encToB (n == 16)) w
    (fun s => [(dst s).use false true n .bin Tag.bin, (fieldB s c w).use true false (rawL2 w) .pdec Tag.bin])
    (fun s => do
      let y ← s.packed c opc (fieldB s c w) (rawL2 w)
      let v := decide (y < -2 ^ (8 * n - 1) ∨ 2 ^ (8 * n - 1) ≤ y)
      let t ← s.putValue c (dst s) n ⟨(y % 2 ^ (8 * n)).toNat, Tag.bin, none⟩
      t.decDone c opc (signClass y) v [dst s, fieldB s c w]))

/-- `DTOB` (05 R140). -/
def execDtob (c : CoreId) (w : L64) (s : State) : Out := decToBin 0x108 8 c w s
/-- `DTOBW` (05 R140). -/
def execDtobw (c : CoreId) (w : L64) (s : State) : Out := decToBin 0x109 16 c w s

/-- `BTOD` and `BTODW`: a signed integer of n bytes to a packed field (05 Table 5.5). -/
def binToDec (opc n : Nat) (e : Enc) (c : CoreId) (w : L64) (s : State) : Out :=
  let src (s : State) := s.resolve c 1 w.sb n
  .next (s.issueL c opc 8 e w
    (fun s => [(fieldA s c w).use false true (rawL1 w) .pdec Tag.pdec, (src s).use true false n .bin Tag.bin])
    (fun s =>
      let x := (BitVec.ofNat (8 * n) (s.value c (src s) n).v).toInt
      s.putPacked c opc (fieldA s c w) (rawL1 w) x [fieldA s c w, src s]))

/-- Zero fields of `BTOD` and `BTODW`. -/
def binToDecZero (w : L64) : Bool := rawL2 w == 1 && rawOpt w == 0

/-- `BTOD` (05 R140). -/
def execBtod (c : CoreId) (w : L64) (s : State) : Out :=
  binToDec 0x10A 8 { a := .w, b := .vi, c := .raw, zero := binToDecZero } c w s
/-- `BTODW` (05 R140). -/
def execBtodw (c : CoreId) (w : L64) (s : State) : Out :=
  binToDec 0x10B 16 { a := .w, b := .v, c := .raw, wideB := true, zero := binToDecZero } c w s

/-- A separate-sign field of one byte (05 R135). -/
def zonedLength (z : Zoned) (l : Nat) : Option (Nat × Nat) :=
  if (z = .leading ∨ z = .trailing) ∧ l = 1 then some (2, 7) else none

/-- `DPAK` (05 R140). -/
def execDpak (c : CoreId) (w : L64) (s : State) : Out :=
  let z := Zoned.ofSgn (rawOpt w % 4)
  .next (s.issueL c 0x10C 8 (encWMR (fun w => rawOpt w < 8) fun w => zonedLength z (rawL2 w)) w
    (fieldUses c w false .pdec .text Tag.pdec)
    (fun s => do
      let y ← s.zonedOf c 0x10C z ((rawOpt w).testBit 2) (fieldB s c w) (rawL2 w)
      s.putPacked c 0x10C (fieldA s c w) (rawL1 w) y [fieldA s c w, fieldB s c w]))

/-- `DUNP` (05 R137, R140). -/
def execDunp (c : CoreId) (w : L64) (s : State) : Out :=
  let z := Zoned.ofSgn (rawOpt w % 4)
  .next (s.issueL c 0x10D 8 (encWMR (fun w => rawOpt w < 4) fun w => zonedLength z (rawL1 w)) w
    (fieldUses c w false .text .pdec Tag.text)
    (fun s => do
      let y ← s.packed c 0x10D (fieldB s c w) (rawL2 w)
      let r := reduce (z.digits (rawL1 w)) y
      let t ← s.putField c (fieldA s c w) (r.zoned z (s.core c).zn.toNat (rawL1 w)) Tag.text
      t.decDone c 0x10D r.cls r.v [fieldA s c w, fieldB s c w]))

/-- `DTST` (05 R144): DCC tells the validity and the sign class; V is unchanged. -/
def execDtst (c : CoreId) (w : L64) (s : State) : Out :=
  let zoned := (rawOpt w).testBit 0
  let z := Zoned.ofSgn (rawOpt w / 2 % 4)
  .next (s.issueL c 0x10E 8
    { a := .m, b := .unused, c := .raw
      zero := fun w => rawL2 w == 1 && rawOpt w < 16 && (zoned || rawOpt w / 2 == 0)
      range := fun w => if zoned then zonedLength z (rawL1 w) else none } w
    (fun s => [(fieldA s c w).use true false (rawL1 w) (if zoned then .text else .pdec) Tag.bin])
    (fun s =>
      let bs := s.field c (fieldA s c w) (rawL1 w)
      let v := if zoned then zonedValue z ((rawOpt w).testBit 3) (s.core c).zn.toNat bs else packedValue bs
      let dcc := match v with
        | .ok x => signClass x
        | .error _ => 3
      done ((s.decFlags c dcc none).updateCursors c [fieldA s c w])))

end Sys2Proof.Machine
end

