-- ==== Sys2Proof/Machine/Query.lean ====
section
/-! DEFINITION. `QUERY_REQUEST` and `QUERY_BATCH`: the state of a request from one snapshot of the Gate (14 R374–R376, Tables 14.10
and 14.11; 16 R408, R410). -/

namespace Sys2Proof.Machine

open Sys2Proof

/-- This module's records of a request that its home ring still holds, oldest first. -/
def State.recordsOf (s : State) (sidx : BitVec 16) (rid : Word) : List RingRec :=
  (s.yard (homeOf sidx)).ring.recs.filter fun e => e.mine && e.sidx == sidx && e.rid == rid

/-- Whether a request dispatched and not completed counts as one with a segment that accepts writes. -/
def State.requestWrites (s : State) (r : Request) : Bool :=
  (s.segments.any fun g => g.state == SegState.writing && r.is g.sidx g.rid)
    || (match r.phase with
      | .lost _ open_ => open_
      | _ => false)

/-- State codes (14 Table 14.10). -/
def stUnknown : Nat := 0
/-- Fetched, not dispatched. -/
def stQueued : Nat := 1
/-- Dispatched. -/
def stRunning : Nat := 2
/-- Sealed, without every acknowledgement. -/
def stSealedLocal : Nat := 3
/-- Sealed and acknowledged. -/
def stMirrored : Nat := 4
/-- Completed. -/
def stDone : Nat := 5
/-- Rejected. -/
def stRejected : Nat := 6
/-- Deadline passed. -/
def stExpiredState : Nat := 7
/-- Rolled back. -/
def stRolledBack : Nat := 8
/-- Failed. -/
def stFailedState : Nat := 9

/-- State and CODE of a request that the Gate holds (14 Table 14.10, rows 1 to 5); rows 4 and 5 look at the segments of every run. -/
def State.liveState (s : State) (r : Request) : Nat × Nat :=
  if r.waiting then (if r.dup then (stRolledBack, 1) else (stQueued, 0))
  else if s.requestWrites r || r.runSegs == 0 then (stRunning, 0)
  else if r.acked = r.segs then (stMirrored, 0)
  else (stSealedLocal, 0)

/-- Whether a request ID is completed in a session's window. -/
def Session.completed (x : Session) (rid : Nat) : Bool :=
  decide (rid ≤ x.wbase.toNat) && x.wmap.getLsbD (x.wbase.toNat - rid)

/-- The newest outcome-ring entry of a request (14, after Table 14.10). -/
def State.newestOutcome (s : State) (sidx : BitVec 16) (rid : Word) : Option OutcomeEntry :=
  s.outcomes.reverse.find? fun o => o.sidx == sidx && o.rid == rid

/-- The newest outcome-ring entry of a request as a batch. -/
def State.newestBatch (s : State) (sidx : BitVec 16) (rid : Word) : Option OutcomeEntry :=
  s.outcomes.reverse.find? fun o => o.sidx == sidx && o.rid == rid && o.batch

/-- State and CODE of a request that the Gate does not hold (14 Table 14.10, rows 6 to 11). -/
def State.pastState (s : State) (sidx : BitVec 16) (rid : Word) : Nat × Nat :=
  let o := s.newestOutcome sidx rid
  let status := (o.map fun o => o.status.toNat).getD 0x100
  if (s.session sidx.toNat).completed rid.toNat then
    (if status = stFailed then (stFailedState, (o.map fun o => o.cause.toNat).getD 0) else (stDone, 0))
  else if inRange 2 6 status || status == 9 then (stRejected, status)
  else if status = stExpired then (stExpiredState, 0)
  else if status = 0xFF then (stRolledBack, 0)
  else (stUnknown, 0)

/-- The request held under a session and RID, the newest where several are. -/
def State.heldRequest (s : State) (sidx : BitVec 16) (rid : Word) : Option Request :=
  s.requests.reverse.find? fun r => r.sidx == sidx && r.rid == rid

/-- The core that runs a request, or 0xFF (14 Table 14.11). -/
def Request.runsOn (r : Request) : Nat :=
  match r.phase with
  | .offered o _ => o.val
  | .taken o _ => o.val
  | _ => 0xFF

/-- What is kept of a request completed here and still in the window. -/
def State.pastRequest (s : State) (sidx : BitVec 16) (rid : Word) : Option PastRequest :=
  (s.session sidx.toNat).past.find? fun p => p.rid == rid && (s.session sidx.toNat).completed rid.toNat

/-- Segments past their seal point in all runs, and those acknowledged: of a request held, of one completed here or in the outcome
ring, else of the records still in the home ring. -/
def State.segmentCounts (s : State) (sidx : BitVec 16) (rid : Word) : Nat × Nat :=
  let recs := s.recordsOf sidx rid
  let acks := (recs.filter (·.acked)).length
  match s.heldRequest sidx rid, s.pastRequest sidx rid, s.newestBatch sidx rid with
  | some r, _, _ => (r.segs, r.acked)
  | none, some p, _ => (p.segs, max p.acked acks)
  | none, none, some o => (o.segs, o.acked)
  | none, none, none => (recs.length, acks)

/-- Completion STATUS and FLAGS of a request in state DONE or FAILED, and its SUMMARY where it can be read (14 Table 14.11,
13 R352). -/
def State.doneFields (s : State) (sidx : BitVec 16) (rid : Word) (st : Nat) : Nat × Nat × Option (List Byte) :=
  let pen := (s.pennantOf sidx.toNat rid.toNat).map (·.1)
  let recs := s.recordsOf sidx rid
  let sum := if st = stDone then pen.map fun p => slice p 0 16 else none
  if st ≠ stDone ∧ st ≠ stFailedState then (0, 0, none)
  else
    match s.pastRequest sidx rid with
    | some p => (p.status.toNat, (if st = stDone then p.flags.toNat % 16 else 0), sum)
    | none =>
      if st = stFailedState then (stFailed, 0, none)
      else
        ((pen.map fun p => (p.getD 16 0).toNat).getD 0 * 256,
         (if recs ≠ [] ∧ recs.all (·.acked) then flagMirrored else 0) + (if recs.any (·.locally) then flagLocal else 0), sum)

/-- The data of Table 14.11. -/
def State.queryData (s : State) (sidx : BitVec 16) (rid : Word) : List Byte :=
  let x := s.session sidx.toNat
  let live := s.heldRequest sidx rid
  let sc := (live.map s.liveState).getD (s.pastState sidx rid)
  let n := s.segmentCounts sidx rid
  let d := s.doneFields sidx rid sc.1
  let bits := (if live.any fun r => !r.attached.isEmpty then 1 else 0) + (if (live.map fun r => decide (1 < r.runs)).getD ((s.pastRequest sidx rid).any (·.again)) then 2 else 0)
    + (if d.2.2.isSome then 4 else 0) + (if rid.toNat + 64 ≤ x.wbase.toNat then 8 else 0)
  toLe 1 sc.1 ++ toLe 1 sc.2 ++ toLe 1 bits ++ toLe 1 ((live.map Request.runsOn).getD 0xFF) ++ toLe 2 n.1 ++ toLe 2 n.2
    ++ toLe 8 x.wbase.toNat ++ d.2.2.getD (List.replicate 16 0) ++ toLe 2 d.1 ++ toLe 1 d.2.1 ++ toLe 5 0
    ++ toLe 8 s.timer.toNat

/-- State of the first entry not applied of a batch that the Gate holds (14 R376). -/
def State.firstNotApplied (s : State) (r : Request) : Nat :=
  if r.nent ≤ r.segs then 0
  else
    match r.phase with
    | .posted => 4
    | _ => if r.waiting then (if r.dup then 3 else 1) else if s.requestWrites r then 2 else 1

/-- The outcome-ring entry that tells of a batch in a state: for DONE and FAILED the one of its completion, and not of a resubmission rejected
since. -/
def State.batchEntry (s : State) (sidx : BitVec 16) (rid : Word) (st : Nat) : Option OutcomeEntry :=
  s.outcomes.reverse.find? fun o => o.sidx == sidx && o.rid == rid && o.batch
    && (st != stDone || o.status == 0) && (st != stFailedState || o.status.toNat == stFailed)

/-- The fields that follow for a batch (14 R376): zero for another request and for an unknown one. -/
def State.batchData (s : State) (sidx : BitVec 16) (rid : Word) : List Byte :=
  let put (nent segs acked st : Nat) : List Byte := toLe 2 nent ++ toLe 2 segs ++ toLe 2 acked ++ toLe 1 st
  let n := s.segmentCounts sidx rid
  match s.heldRequest sidx rid with
  | some r => if r.nent = 0 then put 0 0 0 0 else put r.nent n.1 n.2 (s.firstNotApplied r)
  | none =>
    let st := (s.pastState sidx rid).1
    match s.batchEntry sidx rid st with
    | some o => if st = stUnknown then put 0 0 0 0 else put o.nent n.1 n.2 (if o.nent ≤ n.1 then 0 else 4)
    | none => if st = stDone ∧ (s.pastRequest sidx rid).any (·.batch) then put 0 0xFFFF 0xFFFF 0xFF else put 0 0 0 0

/-- A query's body: a closed session answers NO_OBJECT (14 R374). -/
def State.query (s : State) (m : MboxId) (req : List Byte) (batch : Bool) : State :=
  let sidx : BitVec 16 := BitVec.ofNat 16 (fieldLe req 0x10 2)
  let rid : Word := BitVec.ofNat 64 (fieldLe req 0x18 8)
  if (s.session sidx.toNat).state = 0 then s.respond m rspNoObject 0x10 []
  else s.respond m 0 0 (s.queryData sidx rid ++ if batch then s.batchData sidx rid else [])

/-- QUERY_REQUEST (14 R374). -/
def execQueryRequest (m : MboxId) (s : State) : Out := .next (s.command m 0x50 whole fun _ req s => s.query m req false)

/-- QUERY_BATCH (14 R376). -/
def execQueryBatch (m : MboxId) (s : State) : Out := .next (s.command m 0x51 whole fun _ req s => s.query m req true)

end Sys2Proof.Machine
end

