-- ==== Sys2Proof/Machine/Faults.lean ====
section
/-! DEFINITION. Single faults and the fatal stop: the steward pairs, core parity, the watchdog, Aisle hops, Gate parity, regulator
phases (17 R411–R424). -/

namespace Sys2Proof.Machine

open Sys2Proof

/-! ## The fatal stop -/

/-- Every segment that accepts writes is rolled back. -/
def State.rollbackAll (s : State) : State :=
  (s.segments.filter fun g => g.state == SegState.writing).foldl (fun s g => s.rollback g.segno) s

/-- Both ports send NOTREADY, and from now on only that (17 R424, 15 R395). -/
def State.sendNotReady (s : State) : State :=
  (List.finRange 2).foldl (fun s p => if (s.port p).linkUp then s.sendShort p 0x12 0 else s) s.holdPorts

/-- CODE of a FATAL_STOP record (17 Table 17.6). -/
def fatalNum : FatalCode → Nat
  | .steward => 1
  | .gate => 2
  | .aisle => 3
  | .bothYards => 4

/-- The module stops serving (17 R424). -/
def State.fatalStop (s : State) (code : FatalCode) : State :=
  if s.steward.fatal then s
  else
    let s := s.log 0x54 4 0 (fatalNum code) 0 0
    let s := { s with steward := { s.steward with fatal := true }, pins := { s.pins with ready := false } }
    s.sendNotReady.rollbackAll

/-- FATAL_STOP (17 R424). -/
def execFatalStop (code : FatalCode) (s : State) : Out := .next (s.fatalStop code)

/-! ## The steward pairs -/

/-- One hour of TIMER. -/
def hour : Nat := 3600000000000

/-- STEWARD_FAILOVER record of a pair under test (17 Table 17.6): the failed pair is the one that is not active. -/
def State.logFailover (s : State) (passed : Bool) : State :=
  match s.steward.testing with
  | none => s
  | some (checker, t) => s.logAt t 0x30 2 (if s.steward.pairB then 0 else 1) checker.toNat (if passed then 1 else 0) 0

/-- LOCKSTEP_MISMATCH (17 R418): the active pair stops and the standby takes over; without one both pairs have failed. -/
def execLockstepMismatch (checker : BitVec 32) (s : State) : Out :=
  let w := s.steward
  if w.fatal then .next s
  else if w.standbyOut then .next ((s.logFailover false).fatalStop .steward)
  else
    let last := if w.pairB then w.mismatchB else w.mismatchA
    let w := { w with
      mismatchA := if w.pairB then w.mismatchA else some s.timer
      mismatchB := if w.pairB then some s.timer else w.mismatchB
      pairB := !w.pairB, standbyOut := true, testing := some (checker, s.timer)
      benched := last.any fun t => decide (s.timer.toNat ≤ t.toNat + hour) }
    .next { s with steward := w }

/-- STEWARD_SELF_TEST (17 R418): the failed pair becomes the standby when it passes, unless it has had two mismatches within one
hour. -/
def execStewardSelfTest (pass : Bool) (s : State) : Out :=
  if s.steward.testing.isNone then .next s
  else
    let s := s.logFailover pass
    .next { s with steward := { s.steward with testing := none, standbyOut := !pass || s.steward.benched } }

/-! ## Cores -/

/-- CAUSE as an exception (02 Table 2.6). -/
def causeExc (k : Core) : ExcOperand :=
  ⟨Fin.ofNat 64 (getField k.cause 16 6), BitVec.ofNat 16 (getField k.cause 0 16), BitVec.ofNat 2 (getField k.cause 22 2), k.faddr⟩

/-- CORE_PARITY_STOP (17 R414): the core stops and writes nothing more, so its buffered stores and the results still due are lost. -/
def execCoreParityStop (c : CoreId) (s : State) : Out :=
  .next (if s.canIssue c then
      ((s.abandonSeal c).modCore c fun k =>
        { k with run := .fatal (causeExc k) 3, sbuf := [], fpq := [], product := none }).noteStop c
    else s)

/-- Whether the watchdog counts a core's wait (17 R413, 09 Table 9.4). -/
def Core.watched (k : Core) : Bool :=
  match k.wait with
  | some .claim => false
  | some .mirror => false
  | some .descriptor => false
  | some .peer => false
  | _ => true

/-- HANG_WATCHDOG (17 R413). -/
def execHangWatchdog (c : CoreId) (s : State) : Out :=
  .next (if s.canIssue c && (s.core c).watched && s.requests.any fun r => (r.takenBy c.val).isSome then
      ((s.abandonSeal c).modCore c fun k => { k with run := .fatal (causeExc k) 2 }).noteStop c
    else s)

/-! ## Aisle, Gate and regulators -/

/-- Whether two stops exchange flits, both ways. -/
def State.exchanges (s : State) (i j : Fin 17) : Bool := s.carries i j && s.carries j i

/-- Whether the Gate or a yard is cut off: two of the three no longer exchange flits (17 Table 17.4; DEDUCED, log entry 165). -/
def State.centreCut (s : State) : Bool :=
  !(s.exchanges gateStop (yardStop .a) && s.exchanges gateStop (yardStop .b) && s.exchanges (yardStop .a) (yardStop .b))

/-- The cores out of paddock that a yard is cut off from are retired, their sessions to the lowest-numbered core in service that can take
them (17 Table 17.4; log entry 152). -/
def State.retireCutOff (s : State) : State :=
  ((List.finRange 96).filter fun c => (s.core c).run != .paddock && bothYards.any (s.cutOff c)).foldl
    (fun s c => s.retireCore c (ownerOf c)) s

/-- AISLE_CRC_FAILURE (17 R416, R423): a flit is sent again; after eight failures on one hop the hop has failed. A module whose Gate or yard
is then cut off stops; else the cores that are cut off from a yard are retired. -/
def execAisleCrcFailure (stop : Fin 17) (decreasing : Bool) (failures : Nat) (s : State) : Out :=
  .next (if failures < 8 ∨ (stop, decreasing) ∈ s.steward.failedHops then s
    else
      let s := { s with steward := { s.steward with failedHops := s.steward.failedHops ++ [(stop, decreasing)] } }.log 0x51 2 stop.val
        (if decreasing then 1 else 0) 0 0
      if s.centreCut then s.fatalStop .aisle else s.retireCutOff)

/-- CODE of a GATE_PARITY record (17 Table 17.6). -/
def parityCode : GateParity → Nat
  | .submission => 1
  | .completion => 2
  | .dispatchTable => 3
  | .sessionWord => 4

/-- GATE_PARITY_ERROR (17 R417): refetched, rebuilt or reread, and logged. -/
def execGateParityError (k : GateParity) (unit : BitVec 16) (s : State) : Out :=
  .next (s.log 0x52 1 0 (parityCode k) 0 (unit.setWidth 64))

/-- REGULATOR_PHASE_FAULT (17 R419, Table 17.6): the phase is disabled; a domain that has lost a second one is below rating. -/
def execRegulatorPhaseFault (domain : Fin 30) (phase : BitVec 8) (s : State) : Out :=
  .next (if (domain, phase) ∈ s.steward.lostPhases then s
    else
      let s := { s with steward := { s.steward with lostPhases := s.steward.lostPhases ++ [(domain, phase)] } }
      s.log 0x38 (if s.belowRating domain then 2 else 1) domain.val phase.toNat 0 0)

end Sys2Proof.Machine
end

