-- ==== Sys2Proof/Machine/Float.lean ====
section
/-! DEFINITION. Floating-point numbers (04 R118–R124): the three formats, their encodings, one rounding of an exact rational,
and the operations on decoded values. -/

namespace Sys2Proof.Machine

open Sys2Proof

/-! ## Formats -/

/-- The formats of 04 Table 4.5. -/
inductive Fmt where
  | b64
  | d64
  | d128
  deriving DecidableEq, Repr

/-- Radix. -/
def Fmt.radix : Fmt → Nat
  | .b64 => 2
  | _ => 10
/-- Precision in digits of the radix. -/
def Fmt.prec : Fmt → Nat
  | .b64 => 53
  | .d64 => 16
  | .d128 => 34
/-- Exponent of the smallest subnormal. -/
def Fmt.qmin : Fmt → Int
  | .b64 => -1074
  | .d64 => -398
  | .d128 => -6176
/-- Exponent of the last digit of the largest finite number. -/
def Fmt.qmax : Fmt → Int
  | .b64 => 971
  | .d64 => 369
  | .d128 => 6111
/-- Bytes of a value. -/
def Fmt.bytes : Fmt → Nat
  | .d128 => 16
  | _ => 8
/-- Result tag (02 Table 2.10). -/
def Fmt.tag : Fmt → Tag
  | .b64 => Tag.f64
  | .d64 => Tag.d64
  | .d128 => Tag.d128
/-- Operand class (02 Table 2.9). -/
def Fmt.cls : Fmt → Cls
  | .b64 => .f64
  | .d64 => .d64
  | .d128 => .d128
/-- Payloads below this bound fit a quiet NaN of the format. -/
def Fmt.payloads : Fmt → Nat
  | .b64 => 2 ^ 51
  | .d64 => 10 ^ 15
  | .d128 => 10 ^ 33

/-- A floating-point datum: (−1)^neg × m × radix^q, an infinity, or a NaN with its payload. -/
inductive Fp where
  | fin (neg : Bool) (m : Nat) (q : Int)
  | inf (neg : Bool)
  | nan (neg signalling : Bool) (payload : Nat)
  deriving DecidableEq, Repr

/-- The default NaN (04 Table 4.5). -/
def Fp.defaultNan : Fp := .nan false false 0

/-- Sign of a datum. -/
def Fp.neg : Fp → Bool
  | .fin n _ _ => n
  | .inf n => n
  | .nan n _ _ => n

/-! ## Declets -/

/-- The three digits of a declet (IEEE 754-2008 densely packed decimal). -/
def decletDigits (x : BitVec 10) : Nat :=
  let b (i : Nat) : Nat := if x.getLsbD i then 1 else 0
  let hi := b 9 * 4 + b 8 * 2 + b 7
  let mid := b 6 * 4 + b 5 * 2 + b 4
  let lo := b 2 * 4 + b 1 * 2 + b 0
  let (d2, d1, d0) :=
    if b 3 = 0 then (hi, mid, lo)
    else match b 2 * 2 + b 1 with
      | 0 => (hi, mid, 8 + b 0)
      | 1 => (hi, 8 + b 4, b 6 * 4 + b 5 * 2 + b 0)
      | 2 => (8 + b 7, mid, b 9 * 4 + b 8 * 2 + b 0)
      | _ => match b 6 * 2 + b 5 with
        | 0 => (8 + b 7, 8 + b 4, b 9 * 4 + b 8 * 2 + b 0)
        | 1 => (8 + b 7, b 9 * 4 + b 8 * 2 + b 4, 8 + b 0)
        | 2 => (hi, 8 + b 4, 8 + b 0)
        | _ => (8 + b 7, 8 + b 4, 8 + b 0)
  d2 * 100 + d1 * 10 + d0

/-- The canonical declet of three digits. -/
def digitsDeclet (n : Nat) : BitVec 10 :=
  let d2 := n / 100 % 10
  let d1 := n / 10 % 10
  let d0 := n % 10
  let v := match decide (8 ≤ d2), decide (8 ≤ d1), decide (8 ≤ d0) with
    | false, false, false => d2 * 128 + d1 * 16 + d0
    | false, false, true => d2 * 128 + d1 * 16 + 8 + d0 % 2
    | false, true, false => d2 * 128 + d0 / 2 * 32 + d1 % 2 * 16 + 10 + d0 % 2
    | true, false, false => d0 / 2 * 256 + d2 % 2 * 128 + d1 * 16 + 12 + d0 % 2
    | true, true, false => d0 / 2 * 256 + d2 % 2 * 128 + d1 % 2 * 16 + 14 + d0 % 2
    | true, false, true => d1 / 2 * 256 + d2 % 2 * 128 + 32 + d1 % 2 * 16 + 14 + d0 % 2
    | false, true, true => d2 * 128 + 64 + d1 % 2 * 16 + 14 + d0 % 2
    | true, true, true => d2 % 2 * 128 + 96 + d1 % 2 * 16 + 14 + d0 % 2
  BitVec.ofNat 10 v

/-- Number of declets of a decimal format. -/
def Fmt.declets : Fmt → Nat
  | .d128 => 11
  | _ => 5

/-- Digits of a trailing field of n declets. -/
def trailDigits : Nat → Nat → Nat
  | 0, _ => 0
  | n + 1, t => decletDigits (BitVec.ofNat 10 (t % 1024)) + 1000 * trailDigits n (t / 1024)

/-- Trailing field of n declets. -/
def digitsTrail : Nat → Nat → Nat
  | 0, _ => 0
  | n + 1, v => (digitsDeclet (v % 1000)).toNat + 1024 * digitsTrail n (v / 1000)

/-! ## Encodings -/

/-- Reads a binary64. -/
def decodeB64 (x : Nat) : Fp :=
  let neg := x.testBit 63
  let e : Nat := x / 2 ^ 52 % 2 ^ 11
  let f : Nat := x % 2 ^ 52
  if e = 0x7FF then (if f = 0 then .inf neg else .nan neg (!f.testBit 51) (f % 2 ^ 51))
  else if e = 0 then .fin neg f (-1074)
  else .fin neg (f + 2 ^ 52) ((e : Int) - 1075)

/-- Reads a decimal in `n` declets with `ec` exponent-continuation bits (04 R120). -/
def decodeDec (f : Fmt) (x : Nat) : Fp :=
  let n := f.declets
  let ec : Nat := if n = 11 then 12 else 8
  let neg := x.testBit (10 * n + ec + 5)
  let t : Nat := x % 2 ^ (10 * n)
  let cont : Nat := x / 2 ^ (10 * n) % 2 ^ ec
  let g := x / 2 ^ (10 * n + ec) % 32
  let m := trailDigits n t
  if g = 31 then .nan neg (cont.testBit (ec - 1)) (if digitsTrail n m = t then m else 0)
  else if g = 30 then .inf neg
  else
    let (top, d) : Nat × Nat := if g < 24 then (g / 8, g % 8) else (g / 2 % 4, 8 + g % 2)
    let e := top * 2 ^ ec + cont
    .fin neg (d * 10 ^ (3 * n) + m) (f.qmin + e)

/-- Reads a datum. -/
def Fmt.decode (f : Fmt) (x : Nat) : Fp :=
  match f with
  | .b64 => decodeB64 x
  | _ => decodeDec f x

/-- Writes a binary64; a finite datum has m < 2^53 and is subnormal only at the least exponent. -/
def encodeB64 (x : Fp) : Nat :=
  match x with
  | .fin n m q =>
    (if n then 2 ^ 63 else 0) + (if m < 2 ^ 52 then m else (q + 1075).toNat * 2 ^ 52 + (m - 2 ^ 52))
  | .inf n => (if n then 2 ^ 63 else 0) + 0x7FF * 2 ^ 52
  | .nan n sg p => (if n then 2 ^ 63 else 0) + 0x7FF * 2 ^ 52 + (if sg then 0 else 2 ^ 51) + p

/-- Writes a canonical decimal. -/
def encodeDec (f : Fmt) (x : Fp) : Nat :=
  let n := f.declets
  let ec := if n = 11 then 12 else 8
  let sign (b : Bool) : Nat := if b then 2 ^ (10 * n + ec + 5) else 0
  match x with
  | .fin ng m q =>
    let e := (q - f.qmin).toNat
    let d := m / 10 ^ (3 * n)
    let g := if d < 8 then e / 2 ^ ec * 8 + d else 24 + e / 2 ^ ec * 2 + (d - 8)
    sign ng + g * 2 ^ (10 * n + ec) + e % 2 ^ ec * 2 ^ (10 * n) + digitsTrail n (m % 10 ^ (3 * n))
  | .inf ng => sign ng + 30 * 2 ^ (10 * n + ec)
  | .nan ng sg p => sign ng + 31 * 2 ^ (10 * n + ec) + (if sg then 2 ^ (10 * n + ec - 1) else 0) + digitsTrail n p

/-- Writes a datum. -/
def Fmt.encode (f : Fmt) (x : Fp) : Nat :=
  match f with
  | .b64 => encodeB64 x
  | _ => encodeDec f x

/-! ## Exact arithmetic -/

/-- Floor of the logarithm of n > 0 to base 2 or 10. -/
def ilog (radix n : Nat) : Nat :=
  if radix = 2 then Nat.log2 n
  else
    let l := Nat.log2 n * 30103 / 100000
    if 10 ^ (l + 1) ≤ n then l + 1 else if n < 10 ^ l then l - 1 else l

/-- A non-negative exact rational. -/
structure Rat0 where
  num : Nat
  den : Nat
  deriving DecidableEq, Repr

/-- m × radix^q. -/
def Rat0.make (radix m : Nat) (q : Int) : Rat0 := ⟨m * radix ^ q.toNat, radix ^ (-q).toNat⟩

/-- Division by radix^e. -/
def Rat0.shift (radix : Nat) (x : Rat0) (e : Int) : Rat0 := ⟨x.num * radix ^ (-e).toNat, x.den * radix ^ e.toNat⟩

/-- Floor of the logarithm of a positive rational. -/
def Rat0.log (radix : Nat) (x : Rat0) : Int :=
  let l : Int := (ilog radix x.num : Int) - ilog radix x.den
  let y := x.shift radix l
  if y.den ≤ y.num then l else l - 1

/-- The five exceptions (04 R125), as FPCTL orders their enables and sticky flags. -/
structure FpFlags where
  iv : Bool := false
  dz : Bool := false
  of : Bool := false
  uf : Bool := false
  ix : Bool := false
  deriving DecidableEq, Repr

/-- Flags as five bits, IV lowest. -/
def FpFlags.bits (f : FpFlags) : BitVec 5 :=
  BitVec.ofNat 5 ((if f.iv then 1 else 0) + (if f.dz then 2 else 0) + (if f.of then 4 else 0) + (if f.uf then 8 else 0)
    + (if f.ix then 16 else 0))

/-- What rounding depends on: FPCTL.RM, FTZ and UFE. -/
structure FpEnv where
  rm : Nat
  ftz : Bool
  ufe : Bool
  deriving DecidableEq, Repr

/-- A result with the exceptions it signals. -/
structure FpRes where
  v : Fp
  fl : FpFlags := {}
  deriving DecidableEq, Repr

/-- Invalid operation without a NaN operand (04 R124). -/
def FpRes.invalid : FpRes := ⟨Fp.defaultNan, { iv := true }⟩

/-- Trailing zero digits of m, at most `fuel`. -/
def trailZeros (radix : Nat) : Nat → Nat → Nat
  | 0, _ => 0
  | fuel + 1, m => if m % radix = 0 then 1 + trailZeros radix fuel (m / radix) else 0

/-- An exact m × radix^e in the format, with the exponent nearest the preferred one (04 R120); binary has no choice. -/
def Fmt.exact (f : Fmt) (neg : Bool) (m : Nat) (e pref : Int) : Fp :=
  if f = .b64 then .fin neg m e
  else
    let up := trailZeros 10 f.prec m
    let down := f.prec - 1 - ilog 10 m
    let hi := min (e + up) f.qmax
    let lo := max (e - down) f.qmin
    let q := max lo (min hi pref)
    .fin neg (if e ≤ q then m / 10 ^ (q - e).toNat else m * 10 ^ (e - q).toNat) q

/-- Zero with the exponent nearest the preferred one. -/
def Fmt.zero (f : Fmt) (neg : Bool) (pref : Int) : Fp :=
  .fin neg 0 (if f = .b64 then f.qmin else max f.qmin (min f.qmax pref))

/-- An overflowed result (04 Table 4.6). -/
def Fmt.overflow (f : Fmt) (rm : Nat) (neg : Bool) : Fp :=
  if rm = 2 ∨ (rm = 3 ∧ neg) ∨ (rm = 4 ∧ ¬ neg) then .fin neg (f.radix ^ f.prec - 1) f.qmax else .inf neg

/-- Rounds a positive exact rational once (04 R121–R123). -/
def Fmt.round (f : Fmt) (env : FpEnv) (neg : Bool) (x : Rat0) (pref : Int) : FpRes :=
  let b := f.radix
  let at_ (e : Int) : Nat × Bool :=
    let y := x.shift b e
    (roundDiv env.rm neg y.num y.den, y.num % y.den != 0)
  let e0 := x.log b - (f.prec - 1 : Nat)
  let (m0, ix0) := at_ e0
  let (m, e) := if m0 = b ^ f.prec then (b ^ (f.prec - 1), e0 + 1) else (m0, e0)
  if e < f.qmin then
    if env.ftz then ⟨f.zero neg f.qmin, { uf := true, ix := true }⟩
    else
      let (m, ix) := at_ f.qmin
      let v := if m = 0 then f.zero neg f.qmin else if ix then .fin neg m f.qmin else f.exact neg m f.qmin pref
      ⟨v, { uf := env.ufe || ix, ix }⟩
  else if f.qmax < e then ⟨f.overflow env.rm neg, { of := true, ix := true }⟩
  else ⟨if ix0 then .fin neg m e else f.exact neg m e pref, { ix := ix0 }⟩

/-- Whether a finite non-zero datum is below the smallest normal number. -/
def Fmt.subnormal (f : Fmt) (m : Nat) (q : Int) : Bool :=
  m != 0 && decide ((ilog f.radix m : Int) + q < f.qmin + (f.prec - 1 : Nat))

/-- A subnormal operand as FTZ takes it (04 R123). -/
def Fmt.flush (f : Fmt) (env : FpEnv) (x : Fp) : Fp :=
  match x with
  | .fin n m q => if env.ftz && f.subnormal m q then .fin n 0 q else x
  | _ => x

/-- The first NaN operand made quiet, its payload fitted to the result's format (04 R124). -/
def Fmt.quiet (f : Fmt) (neg : Bool) (p : Nat) : Fp := .nan neg false (if p < f.payloads then p else 0)

/-- NaN rule: a result from the first NaN operand; a signalling one makes the operation invalid. -/
def Fmt.nanRule (f : Fmt) (xs : List Fp) : Option FpRes :=
  let iv := xs.any fun | .nan _ sg _ => sg | _ => false
  xs.findSome? fun
    | .nan n _ p => some ⟨f.quiet n p, { iv }⟩
    | _ => none

/-- An exact signed sum of m1 × b^q1 and m2 × b^q2, rounded; the sign of an exact zero follows 04 R121. -/
def Fmt.sum (f : Fmt) (env : FpEnv) (n1 : Bool) (m1 : Nat) (q1 : Int) (n2 : Bool) (m2 : Nat) (q2 : Int) : FpRes :=
  let q := min q1 q2
  let a : Int := m1 * (f.radix : Int) ^ (q1 - q).toNat
  let b : Int := m2 * (f.radix : Int) ^ (q2 - q).toNat
  let t := (if n1 then -a else a) + (if n2 then -b else b)
  if t = 0 then ⟨f.zero (if n1 = n2 then n1 else env.rm == 4) q, {}⟩
  else f.round env (decide (t < 0)) (Rat0.make f.radix t.natAbs q) q

/-- x + y. -/
def Fmt.add (f : Fmt) (env : FpEnv) (x y : Fp) : FpRes :=
  match f.nanRule [x, y] with
  | some r => r
  | none =>
    match x, y with
    | .inf a, .inf b => if a = b then ⟨.inf a, {}⟩ else FpRes.invalid
    | .inf a, _ => ⟨.inf a, {}⟩
    | _, .inf b => ⟨.inf b, {}⟩
    | .fin n1 m1 q1, .fin n2 m2 q2 => f.sum env n1 m1 q1 n2 m2 q2
    | _, _ => FpRes.invalid

/-- A datum with its sign inverted, NaNs apart. -/
def Fp.minus : Fp → Fp
  | .fin n m q => .fin (!n) m q
  | .inf n => .inf (!n)
  | x => x

/-- x × y. -/
def Fmt.mul (f : Fmt) (env : FpEnv) (x y : Fp) : FpRes :=
  match f.nanRule [x, y] with
  | some r => r
  | none =>
    let s := x.neg != y.neg
    match x, y with
    | .fin _ m1 q1, .fin _ m2 q2 =>
      if m1 * m2 = 0 then ⟨f.zero s (q1 + q2), {}⟩ else f.round env s (Rat0.make f.radix (m1 * m2) (q1 + q2)) (q1 + q2)
    | .inf _, .fin _ m _ => if m = 0 then FpRes.invalid else ⟨.inf s, {}⟩
    | .fin _ m _, .inf _ => if m = 0 then FpRes.invalid else ⟨.inf s, {}⟩
    | _, _ => ⟨.inf s, {}⟩

/-- x ÷ y. -/
def Fmt.div (f : Fmt) (env : FpEnv) (x y : Fp) : FpRes :=
  match f.nanRule [x, y] with
  | some r => r
  | none =>
    let s := x.neg != y.neg
    match x, y with
    | .fin _ m1 q1, .fin _ m2 q2 =>
      if m2 = 0 then (if m1 = 0 then FpRes.invalid else ⟨.inf s, { dz := true }⟩)
      else if m1 = 0 then ⟨f.zero s (q1 - q2), {}⟩
      else
        let r := Rat0.make f.radix m1 (q1 - q2)
        f.round env s ⟨r.num, r.den * m2⟩ (q1 - q2)
    | .inf _, .fin _ _ _ => ⟨.inf s, {}⟩
    | .fin _ _ _, .inf _ => ⟨f.zero s f.qmin, {}⟩
    | _, _ => FpRes.invalid

/-- Integer square root by bits from bit i − 1 down. -/
def isqrt (n : Nat) : Nat → Nat → Nat
  | 0, r => r
  | i + 1, r => isqrt n i (if (r + 2 ^ i) * (r + 2 ^ i) ≤ n then r + 2 ^ i else r)

/-- √x: the root is taken to two digits beyond the precision, with half a unit more where it is not exact, so that it
rounds as the exact root does. -/
def Fmt.sqrt (f : Fmt) (env : FpEnv) (x : Fp) : FpRes :=
  match f.nanRule [x] with
  | some r => r
  | none =>
    match x with
    | .fin n m q =>
      let pref := q / 2
      if m = 0 then ⟨f.zero n pref, {}⟩
      else if n then FpRes.invalid
      else
        let r := Rat0.make f.radix m q
        let sh : Int := (f.prec + 2 : Nat) - r.log f.radix / 2
        let y := r.shift f.radix (-2 * sh)
        let k := y.num / y.den
        let root := isqrt k (Nat.log2 k / 2 + 1) 0
        let half := if root * root * y.den = y.num then 0 else 1
        let z := (⟨2 * root + half, 2⟩ : Rat0).shift f.radix sh
        f.round env false z pref
    | .inf n => if n then FpRes.invalid else ⟨.inf false, {}⟩
    | _ => FpRes.invalid

/-- a × b + c, rounded once (04 Table 4.7). -/
def Fmt.fma (f : Fmt) (env : FpEnv) (a b c : Fp) : FpRes :=
  let zinf := match a, b with
    | .inf _, .fin _ m _ => m == 0
    | .fin _ m _, .inf _ => m == 0
    | _, _ => false
  match f.nanRule [a, b, c] with
  | some r => { r with fl := { r.fl with iv := r.fl.iv || zinf } }
  | none =>
    let s := a.neg != b.neg
    if zinf then FpRes.invalid
    else match a, b, c with
      | .fin _ m1 q1, .fin _ m2 q2, .fin n3 m3 q3 => f.sum env s (m1 * m2) (q1 + q2) n3 m3 q3
      | .fin _ _ _, .fin _ _ _, .inf n3 => ⟨.inf n3, {}⟩
      | _, _, .inf n3 => if s = n3 then ⟨.inf s, {}⟩ else FpRes.invalid
      | _, _, _ => ⟨.inf s, {}⟩

/-- A finite datum as an exact signed rational is compared: less, equal. -/
def fpCompare (radix : Nat) (n1 : Bool) (m1 : Nat) (q1 : Int) (n2 : Bool) (m2 : Nat) (q2 : Int) : Bool × Bool :=
  let q := min q1 q2
  let a : Int := m1 * (radix : Int) ^ (q1 - q).toNat
  let b : Int := m2 * (radix : Int) ^ (q2 - q).toNat
  let x := if n1 then -a else a
  let y := if n2 then -b else b
  (decide (x < y), decide (x = y))

/-- Compare: Z, N, V and the exceptions (04 R127). -/
def Fmt.compare (f : Fmt) (x y : Fp) : Bool × Bool × Bool × FpFlags :=
  match x, y with
  | .nan _ s _, .nan _ t _ => (false, false, true, { iv := s || t })
  | .nan _ s _, _ => (false, false, true, { iv := s })
  | _, .nan _ t _ => (false, false, true, { iv := t })
  | .inf a, .inf b => (a == b, a && !b, false, {})
  | .inf a, _ => (false, a, false, {})
  | _, .inf b => (false, !b, false, {})
  | .fin n1 m1 q1, .fin n2 m2 q2 =>
    let r := fpCompare f.radix n1 m1 q1 n2 m2 q2
    (r.2, r.1, false, {})

/-- An exact integer into a format (04 Table 4.7 F`FROMI`). -/
def Fmt.fromInt (f : Fmt) (env : FpEnv) (v : Int) : FpRes :=
  if v = 0 then ⟨f.zero false 0, {}⟩ else f.round env (decide (v < 0)) ⟨v.natAbs, 1⟩ 0

/-- A finite datum rounded to an integer magnitude, and whether that changed it. -/
def intMag (radix rm : Nat) (neg : Bool) (m : Nat) (q : Int) : Nat × Bool :=
  let r := Rat0.make radix m q
  (roundDiv rm neg r.num r.den, r.num % r.den != 0)

/-- Rounding to an integer in [lo, hi] (04 R128); an operand without such an integer is invalid and answers `low`, `high`
or, for a NaN, `nan`. -/
def Fmt.toInt (f : Fmt) (env : FpEnv) (lo hi low high nan : Int) (x : Fp) : Int × FpFlags :=
  match x with
  | .nan _ _ _ => (nan, { iv := true })
  | .inf n => (if n then low else high, { iv := true })
  | .fin n m q =>
    let (a, ix) := intMag f.radix env.rm n m q
    let v : Int := if n then -(a : Int) else a
    if v < lo then (low, { iv := true }) else if hi < v then (high, { iv := true }) else (v, { ix })

/-- Rounding to an integral value of the format (04 Table 4.7 F`RND`). -/
def Fmt.rnd (f : Fmt) (env : FpEnv) (x : Fp) : FpRes :=
  match f.nanRule [x] with
  | some r => r
  | none =>
    match x with
    | .fin n m q =>
      if 0 ≤ q ∨ m = 0 then ⟨if m = 0 then f.zero n (max q 0) else x, {}⟩
      else
        let (a, ix) := intMag f.radix env.rm n m q
        if a = 0 then ⟨f.zero n 0, { ix }⟩
        else ⟨(f.round env n ⟨a, 1⟩ 0).v, { ix }⟩
    | _ => ⟨x, {}⟩

/-- Quantize (04 Table 4.7): B with the exponent of C. A tiny result is treated as 04 R122 and R123 treat every result. -/
def Fmt.quantize (f : Fmt) (env : FpEnv) (x y : Fp) : FpRes :=
  match f.nanRule [x, y] with
  | some r => r
  | none =>
    match x, y with
    | .inf n, .inf _ => ⟨.inf n, {}⟩
    | .fin n m q, .fin _ _ q2 =>
      let z := (Rat0.make 10 m q).shift 10 q2
      let a := roundDiv env.rm n z.num z.den
      let ix := z.num % z.den != 0
      if 10 ^ f.prec ≤ a then FpRes.invalid
      else if f.subnormal a q2 then
        if env.ftz then ⟨.fin n 0 q2, { uf := true, ix := true }⟩ else ⟨.fin n a q2, { uf := env.ufe || ix, ix }⟩
      else ⟨.fin n a q2, { ix }⟩
    | _, _ => FpRes.invalid

/-- Class mask (04 Table 4.7 F`CLASS`). -/
def Fmt.classMask (f : Fmt) (x : Fp) : Nat :=
  match x with
  | .nan _ sg _ => if sg then 256 else 512
  | .inf n => if n then 1 else 128
  | .fin n m q =>
    if m = 0 then (if n then 8 else 16)
    else if f.subnormal m q then (if n then 4 else 32)
    else if n then 2 else 64

/-- Conversion from one format to another (04 Table 4.7, R124). The preferred exponent is the source's from decimal and 0
from binary. -/
def Fmt.convert (src dst : Fmt) (env : FpEnv) (x : Fp) : FpRes :=
  match x with
  | .nan n sg p => ⟨dst.quiet n p, { iv := sg }⟩
  | .inf n => ⟨.inf n, {}⟩
  | .fin n m q =>
    let pref := if src = .b64 then 0 else q
    if m = 0 then ⟨dst.zero n pref, {}⟩ else dst.round env n (Rat0.make src.radix m q) pref

end Sys2Proof.Machine
end

