-- ==== Sys2Proof/Machine/FloatOps.lean ====
section
/-! DEFINITION. The floating-point group (04 R121–R129): operands, exceptions and traps (R125), pipelined results (R129), and
the instructions. -/

namespace Sys2Proof.Machine

open Sys2Proof

/-! ## Shared shapes -/

/-- The rounding environment of a core. -/
def Core.fpEnv (k : Core) : FpEnv := ⟨k.rm, k.fpctl.getLsbD 13, k.fpctl.getLsbD 6⟩

/-- Trap enables of FPCTL, IV lowest. -/
def Core.fpEnables (k : Core) : BitVec 5 := k.fpctl.extractLsb' 3 5

/-- Vector of the highest-priority exception of a set (04 R125). -/
def fpVector (e : BitVec 5) : Nat :=
  if e.getLsbD 0 then 14 else if e.getLsbD 1 then 15 else if e.getLsbD 2 then 16 else if e.getLsbD 3 then 17 else 18

/-- Sets sticky flags. -/
def State.sticky (s : State) (c : CoreId) (fl : BitVec 5) : State :=
  s.modCore c fun k => { k with fpctl := k.fpctl ||| (fl.setWidth 64 <<< 8) }

/-- A result of `n` bytes reaches its destination (04 R125, R129): an enabled exception is raised with nothing written; a
pipelined result for a register is still due while every enable is 0; any other is written at once. -/
def State.fpFinish (s : State) (c : CoreId) (opc : Nat) (long : Bool) (fl : FpFlags) (o : Opd) (n : Nat) (v : Nat) (t : Tag)
    (os : List Opd) : Except Stop Done :=
  let k := s.core c
  let e := fl.bits &&& k.fpEnables
  if e ≠ 0 then .error (.exc (opExc (fpVector e) opc 0 0) s)
  else
    let now : Except Stop Done := do
      let t ← s.putValue c o n ⟨v, t, none⟩
      done ((t.sticky c fl.bits).updateCursors c os)
    match o.place with
    | .reg r =>
      if long || k.fpEnables != 0 then now
      else
        done ((s.modCore c fun k =>
          { k with fpq := k.fpq ++ [⟨k.depth, r, n == 16, BitVec.ofNat 128 v, t, fl.bits⟩] }).updateCursors c os)
    | _ => now

/-- Operand A of a format. -/
def fpA (c : CoreId) (w : L64) (n : Nat) (s : State) : Opd := s.resolve c 0 w.sa n
/-- Operand B. -/
def fpB (c : CoreId) (w : L64) (n : Nat) (s : State) : Opd := s.resolve c 1 w.sb n
/-- Operand C. -/
def fpC (c : CoreId) (w : L64) (n : Nat) (s : State) : Opd := s.resolve c 2 w.sc n

/-- Whether a value takes a register pair. -/
def Fmt.wide (f : Fmt) : Bool := f.bytes == 16

/-- A source operand as the operation takes it (04 R120, R123). -/
def State.fpValue (s : State) (c : CoreId) (f : Fmt) (o : Opd) : Fp :=
  f.flush (s.core c).fpEnv (f.decode (s.value c o f.bytes).v)

/-- Checks of a source of a format. -/
def fpSource (f : Fmt) (o : Opd) : Use := o.use true false f.bytes f.cls Tag.bin
/-- Checks of a destination of a format. -/
def fpDest (f : Fmt) (o : Opd) : Use := o.use false true f.bytes f.cls f.tag

/-- A := op B C. -/
def fpThree (f : Fmt) (opc : Nat) (long : Bool) (op : FpEnv → Fp → Fp → FpRes) (c : CoreId) (w : L64) (s : State) : Out :=
  let n := f.bytes
  .next (s.issueL c opc 8 { a := .d, b := .v, c := .v, wideA := f.wide, wideB := f.wide, wideC := f.wide } w
    (fun s => [fpDest f (fpA c w n s), fpSource f (fpB c w n s), fpSource f (fpC c w n s)])
    (fun s =>
      let r := op (s.core c).fpEnv (s.fpValue c f (fpB c w n s)) (s.fpValue c f (fpC c w n s))
      s.fpFinish c opc long r.fl (fpA c w n s) n (f.encode r.v) f.tag [fpA c w n s, fpB c w n s, fpC c w n s]))

/-- A := op B, from one format to another. -/
def fpTwo (src dst : Fmt) (opc : Nat) (long : Bool) (op : FpEnv → Fp → FpRes) (c : CoreId) (w : L64) (s : State) : Out :=
  .next (s.issueL c opc 8 { a := .d, b := .v, c := .unused, wideA := dst.wide, wideB := src.wide } w
    (fun s => [fpDest dst (fpA c w dst.bytes s), fpSource src (fpB c w src.bytes s)])
    (fun s =>
      let r := op (s.core c).fpEnv (s.fpValue c src (fpB c w src.bytes s))
      s.fpFinish c opc long r.fl (fpA c w dst.bytes s) dst.bytes (dst.encode r.v) dst.tag
        [fpA c w dst.bytes s, fpB c w src.bytes s]))

/-- A := A × B + C. -/
def fpFma (f : Fmt) (opc : Nat) (c : CoreId) (w : L64) (s : State) : Out :=
  let n := f.bytes
  .next (s.issueL c opc 8 { a := .u, b := .v, c := .v, wideA := f.wide, wideB := f.wide, wideC := f.wide } w
    (fun s => [(fpA c w n s).use true true n f.cls f.tag, fpSource f (fpB c w n s), fpSource f (fpC c w n s)])
    (fun s =>
      let r := f.fma (s.core c).fpEnv (s.fpValue c f (fpA c w n s)) (s.fpValue c f (fpB c w n s))
        (s.fpValue c f (fpC c w n s))
      s.fpFinish c opc false r.fl (fpA c w n s) n (f.encode r.v) f.tag [fpA c w n s, fpB c w n s, fpC c w n s]))

/-- Compare (04 R127): FLAGS and sticky flags at once. -/
def fpCmp (f : Fmt) (opc : Nat) (c : CoreId) (w : L64) (s : State) : Out :=
  let n := f.bytes
  .next (s.issueL c opc 8 { a := .v, b := .v, c := .unused, wideA := f.wide, wideB := f.wide } w
    (fun s => [fpSource f (fpA c w n s), fpSource f (fpB c w n s)])
    (fun s =>
      let (z, l, u, fl) := f.compare (s.fpValue c f (fpA c w n s)) (s.fpValue c f (fpB c w n s))
      let e := fl.bits &&& (s.core c).fpEnables
      if e ≠ 0 then .error (.exc (opExc (fpVector e) opc 0 0) s)
      else
        let s := (s.sticky c fl.bits).modCore c fun k =>
          { k with flags := setBit (setBit (setBit (setBit k.flags 0 z) 1 l) 2 u) 3 false }
        done (s.updateCursors c [fpA c w n s, fpB c w n s])))

/-- A change of the sign bit alone (04 R124). -/
def fpSign (f : Fmt) (opc : Nat) (sign : Bool → Bool) (c : CoreId) (w : L64) (s : State) : Out :=
  let n := f.bytes
  .next (s.issueL c opc 8 { a := .d, b := .v, c := .unused, wideA := f.wide, wideB := f.wide } w
    (fun s => [fpDest f (fpA c w n s), fpSource f (fpB c w n s)])
    (fun s =>
      let v := (s.value c (fpB c w n s) n).v
      let top := 2 ^ (8 * n - 1)
      let r := v % top + if sign (decide (top ≤ v)) then top else 0
      s.fpFinish c opc false {} (fpA c w n s) n r f.tag [fpA c w n s, fpB c w n s]))

/-- A := a 64-bit integer B (04 Table 4.7 F`FROMI`). -/
def fpFromInt (f : Fmt) (opc : Nat) (c : CoreId) (w : L64) (s : State) : Out :=
  let n := f.bytes
  .next (s.issueL c opc 8 { a := .d, b := .vi, c := .unused, wideA := f.wide } w
    (fun s => [fpDest f (fpA c w n s), (fpB c w 8 s).source])
    (fun s =>
      let r := f.fromInt (s.core c).fpEnv (sval (s.value c (fpB c w 8 s) 8).w)
      s.fpFinish c opc false r.fl (fpA c w n s) n (f.encode r.v) f.tag [fpA c w n s, fpB c w 8 s]))

/-- A := a 64-bit integer from B, tagged BIN. -/
def fpToWord (f : Fmt) (opc : Nat) (op : FpEnv → Nat → Int × FpFlags) (c : CoreId) (w : L64) (s : State) : Out :=
  let n := f.bytes
  .next (s.issueL c opc 8 { a := .d, b := .v, c := .unused, wideB := f.wide } w
    (fun s => [(fpA c w 8 s).dest, fpSource f (fpB c w n s)])
    (fun s =>
      let r := op (s.core c).fpEnv (s.value c (fpB c w n s) n).v
      s.fpFinish c opc false r.2 (fpA c w 8 s) 8 (word r.1).toNat Tag.bin [fpA c w 8 s, fpB c w n s]))

/-- F`TOI` (04 R128). -/
def fpToInt (f : Fmt) (opc : Nat) (c : CoreId) (w : L64) (s : State) : Out :=
  fpToWord f opc (fun env v =>
    f.toInt env (-2 ^ 63) (2 ^ 63 - 1) (-2 ^ 63) (2 ^ 63 - 1) (-2 ^ 63) (f.flush env (f.decode v))) c w s

/-- F`CLASS` (04 Table 4.7): the operand as stored. -/
def fpClass (f : Fmt) (opc : Nat) (c : CoreId) (w : L64) (s : State) : Out :=
  fpToWord f opc (fun _ v => (f.classMask (f.decode v), {})) c w s

/-! ## Instructions -/

/-- `FADD` (04 R126). -/
def execFadd (c : CoreId) (w : L64) (s : State) : Out := fpThree .b64 0x200 false Fmt.b64.add c w s

/-- `FSUB` (04 R126). -/
def execFsub (c : CoreId) (w : L64) (s : State) : Out := fpThree .b64 0x201 false (fun env x y => Fmt.b64.add env x y.minus) c w s

/-- `FMUL` (04 R126). -/
def execFmul (c : CoreId) (w : L64) (s : State) : Out := fpThree .b64 0x202 false Fmt.b64.mul c w s

/-- `FDIV` (04 R126). -/
def execFdiv (c : CoreId) (w : L64) (s : State) : Out := fpThree .b64 0x203 true Fmt.b64.div c w s

/-- `FSQRT` (04 R126). -/
def execFsqrt (c : CoreId) (w : L64) (s : State) : Out := fpTwo .b64 .b64 0x204 true Fmt.b64.sqrt c w s

/-- `FMA` (04 R126). -/
def execFma (c : CoreId) (w : L64) (s : State) : Out := fpFma .b64 0x205 c w s

/-- `FCMP` (04 R127). -/
def execFcmp (c : CoreId) (w : L64) (s : State) : Out := fpCmp .b64 0x206 c w s

/-- `FABS` (04 R124). -/
def execFabs (c : CoreId) (w : L64) (s : State) : Out := fpSign .b64 0x207 (fun _ => false) c w s

/-- `FNEG` (04 R124). -/
def execFneg (c : CoreId) (w : L64) (s : State) : Out := fpSign .b64 0x208 (fun b => !b) c w s

/-- `FFROMI` (04 R126). -/
def execFfromi (c : CoreId) (w : L64) (s : State) : Out := fpFromInt .b64 0x209 c w s

/-- `FTOI` (04 R128). -/
def execFtoi (c : CoreId) (w : L64) (s : State) : Out := fpToInt .b64 0x20A c w s

/-- `FRND` (04 R126). -/
def execFrnd (c : CoreId) (w : L64) (s : State) : Out := fpTwo .b64 .b64 0x20B false Fmt.b64.rnd c w s

/-- `FCLASS` (04 R126). -/
def execFclass (c : CoreId) (w : L64) (s : State) : Out := fpClass .b64 0x20D c w s

/-- `DFADD` (04 R126). -/
def execDfadd (c : CoreId) (w : L64) (s : State) : Out := fpThree .d64 0x210 false Fmt.d64.add c w s

/-- `DFSUB` (04 R126). -/
def execDfsub (c : CoreId) (w : L64) (s : State) : Out := fpThree .d64 0x211 false (fun env x y => Fmt.d64.add env x y.minus) c w s

/-- `DFMUL` (04 R126). -/
def execDfmul (c : CoreId) (w : L64) (s : State) : Out := fpThree .d64 0x212 false Fmt.d64.mul c w s

/-- `DFDIV` (04 R126). -/
def execDfdiv (c : CoreId) (w : L64) (s : State) : Out := fpThree .d64 0x213 true Fmt.d64.div c w s

/-- `DFSQRT` (04 R126). -/
def execDfsqrt (c : CoreId) (w : L64) (s : State) : Out := fpTwo .d64 .d64 0x214 true Fmt.d64.sqrt c w s

/-- `DFMA` (04 R126). -/
def execDfma (c : CoreId) (w : L64) (s : State) : Out := fpFma .d64 0x215 c w s

/-- `DFCMP` (04 R127). -/
def execDfcmp (c : CoreId) (w : L64) (s : State) : Out := fpCmp .d64 0x216 c w s

/-- `DFABS` (04 R124). -/
def execDfabs (c : CoreId) (w : L64) (s : State) : Out := fpSign .d64 0x217 (fun _ => false) c w s

/-- `DFNEG` (04 R124). -/
def execDfneg (c : CoreId) (w : L64) (s : State) : Out := fpSign .d64 0x218 (fun b => !b) c w s

/-- `DFFROMI` (04 R126). -/
def execDffromi (c : CoreId) (w : L64) (s : State) : Out := fpFromInt .d64 0x219 c w s

/-- `DFTOI` (04 R128). -/
def execDftoi (c : CoreId) (w : L64) (s : State) : Out := fpToInt .d64 0x21A c w s

/-- `DFRND` (04 R126). -/
def execDfrnd (c : CoreId) (w : L64) (s : State) : Out := fpTwo .d64 .d64 0x21B false Fmt.d64.rnd c w s

/-- `DFQUA` (04 R126). -/
def execDfqua (c : CoreId) (w : L64) (s : State) : Out := fpThree .d64 0x21C false Fmt.d64.quantize c w s

/-- `DFCLASS` (04 R126). -/
def execDfclass (c : CoreId) (w : L64) (s : State) : Out := fpClass .d64 0x21D c w s

/-- `DQADD` (04 R126). -/
def execDqadd (c : CoreId) (w : L64) (s : State) : Out := fpThree .d128 0x220 false Fmt.d128.add c w s

/-- `DQSUB` (04 R126). -/
def execDqsub (c : CoreId) (w : L64) (s : State) : Out := fpThree .d128 0x221 false (fun env x y => Fmt.d128.add env x y.minus) c w s

/-- `DQMUL` (04 R126). -/
def execDqmul (c : CoreId) (w : L64) (s : State) : Out := fpThree .d128 0x222 false Fmt.d128.mul c w s

/-- `DQDIV` (04 R126). -/
def execDqdiv (c : CoreId) (w : L64) (s : State) : Out := fpThree .d128 0x223 true Fmt.d128.div c w s

/-- `DQSQRT` (04 R126). -/
def execDqsqrt (c : CoreId) (w : L64) (s : State) : Out := fpTwo .d128 .d128 0x224 true Fmt.d128.sqrt c w s

/-- `DQFMA` (04 R126). -/
def execDqfma (c : CoreId) (w : L64) (s : State) : Out := fpFma .d128 0x225 c w s

/-- `DQCMP` (04 R127). -/
def execDqcmp (c : CoreId) (w : L64) (s : State) : Out := fpCmp .d128 0x226 c w s

/-- `DQABS` (04 R124). -/
def execDqabs (c : CoreId) (w : L64) (s : State) : Out := fpSign .d128 0x227 (fun _ => false) c w s

/-- `DQNEG` (04 R124). -/
def execDqneg (c : CoreId) (w : L64) (s : State) : Out := fpSign .d128 0x228 (fun b => !b) c w s

/-- `DQFROMI` (04 R126). -/
def execDqfromi (c : CoreId) (w : L64) (s : State) : Out := fpFromInt .d128 0x229 c w s

/-- `DQTOI` (04 R128). -/
def execDqtoi (c : CoreId) (w : L64) (s : State) : Out := fpToInt .d128 0x22A c w s

/-- `DQRND` (04 R126). -/
def execDqrnd (c : CoreId) (w : L64) (s : State) : Out := fpTwo .d128 .d128 0x22B false Fmt.d128.rnd c w s

/-- `DQQUA` (04 R126). -/
def execDqqua (c : CoreId) (w : L64) (s : State) : Out := fpThree .d128 0x22C false Fmt.d128.quantize c w s

/-- `DQCLASS` (04 R126). -/
def execDqclass (c : CoreId) (w : L64) (s : State) : Out := fpClass .d128 0x22D c w s

/-- `FTODF` (04 R126). -/
def execFtodf (c : CoreId) (w : L64) (s : State) : Out := fpTwo .b64 .d64 0x230 false (Fmt.convert .b64 .d64) c w s

/-- `DFTOF` (04 R126). -/
def execDftof (c : CoreId) (w : L64) (s : State) : Out := fpTwo .d64 .b64 0x231 false (Fmt.convert .d64 .b64) c w s

/-- `DFTODQ` (04 R126). -/
def execDftodq (c : CoreId) (w : L64) (s : State) : Out := fpTwo .d64 .d128 0x232 false (Fmt.convert .d64 .d128) c w s

/-- `DQTODF` (04 R126). -/
def execDqtodf (c : CoreId) (w : L64) (s : State) : Out := fpTwo .d128 .d64 0x233 false (Fmt.convert .d128 .d64) c w s

/-- `FTODQ` (04 R126). -/
def execFtodq (c : CoreId) (w : L64) (s : State) : Out := fpTwo .b64 .d128 0x234 false (Fmt.convert .b64 .d128) c w s

/-- `DQTOF` (04 R126). -/
def execDqtof (c : CoreId) (w : L64) (s : State) : Out := fpTwo .d128 .b64 0x235 false (Fmt.convert .d128 .b64) c w s

/-- Bytes of a 16 B value, in a register pair or in memory (04 R119). -/
def wideBytes (v : Nat) : List Byte := toLe 16 v

/-- `PTODQ` (04 Table 4.7): an invalid digit or sign raises DECIMAL_DATA. -/
def execPtodq (c : CoreId) (w : L64) (s : State) : Out :=
  .next (s.issueL c 0x236 8 { a := .d, b := .v, c := .unused, wideA := true, wideB := true } w
    (fun s => [fpDest .d128 (fpA c w 16 s), (fpB c w 16 s).use true false 16 .pdec Tag.bin])
    (fun s =>
      match packedValue (wideBytes (s.value c (fpB c w 16 s) 16).v) with
      | .error e => .error (.exc (dataExc 0x236 (fpB c w 16 s) e) s)
      | .ok v =>
        s.fpFinish c 0x236 false {} (fpA c w 16 s) 16 (Fmt.d128.encode (.fin (decide (v < 0)) v.natAbs 0)) Tag.d128
          [fpA c w 16 s, fpB c w 16 s]))

/-- `DQTOP` (04 Table 4.7, R128). -/
def execDqtop (c : CoreId) (w : L64) (s : State) : Out :=
  let top : Int := 10 ^ 31 - 1
  .next (s.issueL c 0x237 8 { a := .d, b := .v, c := .unused, wideA := true, wideB := true } w
    (fun s => [(fpA c w 16 s).use false true 16 .pdec Tag.pdec, fpSource .d128 (fpB c w 16 s)])
    (fun s =>
      let r := Fmt.d128.toInt (s.core c).fpEnv (-top) top (-top) top top (s.fpValue c .d128 (fpB c w 16 s))
      s.fpFinish c 0x237 false r.2 (fpA c w 16 s) 16 (leNat ((reduce 31 r.1).packed 16)) Tag.pdec
        [fpA c w 16 s, fpB c w 16 s]))

/-- `FP_RESULT_WRITTEN` (04 R129): the oldest result still due reaches its register, with its sticky flags. -/
def execFpResultWritten (c : CoreId) (s : State) : Out :=
  .next (s.modCore c fun k =>
    match k.fpq with
    | [] => k
    | d :: t => { k.landOne d with fpq := t })

end Sys2Proof.Machine
end

