-- ==== Sys2Proof/Machine/Special.lean ====
section
/-! DEFINITION. `MFS` and `MTS`: the special registers (02 R19–R25, Tables 2.2–2.6), and the deterministic slot (08 R231). -/

namespace Sys2Proof.Machine

open Sys2Proof

/-- A special register as `MFS` reads it (02 Table 2.2). -/
def State.specialRead (s : State) (c : CoreId) (n : Nat) : Word :=
  let k := s.core c
  match n with
  | 0 => k.statusRead
  | 1 => k.flags
  | 2 => k.fpctl
  | 3 => k.resume
  | 4 => k.mh
  | 5 => k.ml
  | 6 => k.zone
  | 7 => k.currency
  | 8 => BitVec.ofNat 64 k.depth.val
  | 9 => k.cause
  | 10 => k.faddr
  | 13 => s.timer
  | 14 => k.tcmp
  | 15 => k.corecfg
  | 16 => k.jseg
  | 17 => k.sessionWord
  | 18 => k.rid
  | _ => 0

/-- Numbers that `MFS` and `MTS` accept (02 R19, R20). -/
def specialNumber (n : Int) : Bool := decide (0 ≤ n ∧ n ≤ 18 ∧ n ≠ 11 ∧ n ≠ 12)

/-- Fields of STATUS whose change needs SYS (02 Table 2.3). -/
def statusSys : Word := 0x4F

/-- STATUS after a write: RW fields take the value, MEARLY clears on 1 (02 R22, Table 2.3). -/
def statusWrite (old v : Word) : Word :=
  ((old &&& ~~~(0x7F : Word)) ||| (v &&& 0x7F)) &&& ~~~(v &&& 0x80)

/-- Whether a write needs SYS authority in C15 (02 R21, R22). -/
def Core.writeNeedsSys (k : Core) (n : Nat) (v : Word) : Bool :=
  match n with
  | 0 => (k.status ^^^ v) &&& statusSys != 0
  | 9 | 10 | 14 | 15 => true
  | _ => false

/-- Whether a value read at execution is out of range (02 R23, Table 2.6; 07 R471). -/
def specialRange (n : Nat) (v : Word) : Bool :=
  (n == 2 && decide (5 ≤ getField v 0 3)) || (n == 7 && decide (5 ≤ getField v 32 3))

/-- A special register written; read-only registers and fields are left (02 Tables 2.3–2.6). -/
def Core.specialWrite (k : Core) (n : Nat) (v : Word) : Core :=
  match n with
  | 0 => { k with status := statusWrite k.status v }
  | 1 => { k with flags := v &&& 0x3F }
  | 2 => { k with fpctl := v &&& 0x3FFF }
  | 3 => { k with resume := v }
  | 4 => { k.landProduct with mh := v }
  | 5 => { k.landProduct with ml := v }
  | 6 => { k with zone := v &&& 0xF }
  | 7 => { k with currency := v &&& 0x7FFFFFFFFFF }
  | 9 => { k with cause := v &&& 0xFFFFFF }
  | 10 => { k with faddr := v }
  | 14 => { k with tcmp := v }
  | 15 => { k with corecfg := v &&& 0x1F, detSlot := k.detSlot && v.getLsbD 0 }
  | _ => k

/-- `MFS` (02 R19): `MFS` of MH or ML waits for the outstanding product (04 R108). -/
def execMfs (c : CoreId) (w : L64) (s : State) : Out :=
  let n := specNum w.sb
  .next (s.issueL c 0x040 8 { a := .d, b := .i, c := .unused, range := fun _ => if specialNumber n then none else some (1, 6) } w
    (fun s => [(opA s c w).dest])
    (fun s => do
      let s := if n = 4 ∨ n = 5 then s.modCore c Core.landProduct else s
      let t ← s.putValue c (opA s c w) 8 (binVal (s.specialRead c n.toNat))
      done (t.updateCursors c [opA s c w])))

/-- What `MTS` checks: its source, then SYS in C15, then ranks 7 and 8 (02 R21, R22). -/
def mtsCheck (c : CoreId) (w : L64) (n : Nat) (s : State) : Option ExcOperand :=
  let us := [(opB s c w).source]
  s.rank6 c us
    <|> (if (s.core c).writeNeedsSys n (s.value c (opB s c w) 8).w ∧ (s.core c).sys = false then some (plainExc 6 5 0) else none)
    <|> s.rank7 c us <|> s.rank8 c us

/-- A special register written by `MTS`; clearing CORECFG.DET empties both L1 caches of the core (08 R231). -/
def State.specialPut (s : State) (c : CoreId) (n : Nat) (v : Word) : State :=
  let t := s.modCore c fun k => k.specialWrite n v
  if (s.core c).det && !(t.core c).det then t.dropL1 c else t

/-- `MTS` (02 R19–R25). The one that sets CORECFG.DET waits until both yards hold a slot for the core (08 R231). -/
def execMts (c : CoreId) (w : L64) (s : State) : Out :=
  let n := specNum w.sa
  let e : Enc := { a := .i, b := .vi, c := .unused, range := fun _ => if specialNumber n then none else some (0, 6) }
  .next (s.issue c 0x041 8 w (e.bad w) (guardOf w) (mtsCheck c w n.toNat) (fun s => [(opB s c w).source])
    (fun s =>
      let v := (s.value c (opB s c w) 8).w
      let k := s.core c
      if specialRange n.toNat v then .error (.exc (operandExc 1 4 0xA k.pcc.cursor.toNat) s)
      else if n = 15 ∧ v.getLsbD 0 ∧ k.det = false ∧ k.detSlot = false then
        .error (.hold (s.modCore c fun k => { k with wait := some .detSlot }) false)
      else done ((s.specialPut c n.toNat v).updateCursors c [opB s c w])))

/-- DET_SLOT_RESERVED (08 R231): both yards hold a slot for a core whose `MTS` waits for it. -/
def execDetSlotReserved (c : CoreId) (s : State) : Out :=
  .next (s.modCore c fun k => if k.wait = some .detSlot then { k with wait := none, detSlot := true } else k)

end Sys2Proof.Machine
end

