-- ==== Sys2Proof/Machine/Strings.lean ====
section
/-! DEFINITION. The string group (06): the register and resume checks, units and their commits, moves, fills, translation,
compare, find, check, transcoding, edit and scan; and the progress commit of one unit (09 R243). -/

namespace Sys2Proof.Machine

open Sys2Proof

/-! ## Specifier C and the register checks -/

/-- Count register of specifier C (06 Table 6.1). -/
def rawCount (w : L64) : BitVec 4 := w.sc.extractLsb' 12 4
/-- Auxiliary register. -/
def rawAux (w : L64) : BitVec 4 := w.sc.extractLsb' 8 4
/-- Options byte. -/
def rawByte (w : L64) : Byte := w.sc.extractLsb' 0 8

/-- RESUME.DONE. -/
def Core.resDone (k : Core) : Nat := getField k.resume 0 48
/-- RESUME.USTATE. -/
def Core.resState (k : Core) : Nat := getField k.resume 48 16
/-- Value of a G register as a count. -/
def Core.gNat (k : Core) (r : BitVec 4) : Nat := (k.getG r).val.toNat

/-- What the register and resume checks need of a string instruction (06 R153, R179): the count registers, the auxiliary
registers read at issue, the progress register, whether the counts are a pattern's, a register that must start a pair,
registers written before completion, and the resume points allowed. -/
structure StrRegs where
  counts : List (BitVec 4)
  aux : List (BitVec 4) := []
  prog : List (BitVec 4) := []
  pattern : Bool := false
  pair : Option (BitVec 4) := none
  valid : Core → Nat → Bool

/-- OPERAND_FORM of an operand, or of none. -/
def Core.formExc (k : Core) (n code : Nat) : ExcOperand := operandExc n 4 code k.pcc.cursor.toNat

/-- The tag check of a register read at issue; a marked register is refused at once (06 R153 step 1, 10 R266). -/
def Core.readRegFault (k : Core) (r : BitVec 4) : Option ExcOperand :=
  match (k.getG r).mark with
  | some a => some (operandExc 2 19 1 a.toNat)
  | none => (k.tagCause .bin (k.getG r).tag).map fun code => operandExc 2 5 code 0

/-- Rank 5: the checks of 06 R153 in order, then the resume point (R154, R179). The registers are those of specifier C, so CAUSE.OPND is C as
for their tags; a resume point lies in no operand (DEDUCED, log entry 18). -/
def StrRegs.fault (q : StrRegs) (k : Core) : Option ExcOperand :=
  let res := k.resume != 0
  let ns := q.counts.map k.gNat
  let n := ns.headD 0
  match (q.counts ++ q.aux ++ if res then q.prog else []).findSome? k.readRegFault with
  | some e => some e
  | none =>
    if ns.any fun v => decide (2 ^ 48 ≤ v) then some (k.formExc 2 7)
    else if q.pattern && ns.any fun v => decide (256 < v) then some (k.formExc 2 7)
    else if (q.pair.map fun r => r == 0 || r.getLsbD 0).getD false then some (k.formExc 2 3)
    else if q.counts.any fun r => q.prog.contains r then some (k.formExc 2 3)
    else if res && (n == 0 || !q.valid k n) then some (k.formExc 3 8)
    else none

/-! ## Units -/

/-- One unit: what it reads and writes, checked before it commits, its effect with its commit, and whether that commit is
the final one (06 R178, R180). -/
structure StrUnit where
  uses : List Use
  body : State → Except Stop State
  final : Bool

/-- A string instruction: its opcode and encoding, its register checks, the result of a zero count, its operands over their whole
ranges, what it takes at issue, and its unit at the current RESUME. The unit is told what was taken at issue (06 R155) and whether it is
the first since. -/
structure StrPlan where
  opc : Nat
  enc : Enc
  regs : StrRegs
  zero : Core → Core
  whole : State → List Use
  take : State → Issued
  unit : Issued → (first : Bool) → State → StrUnit

/-- Operand n of those taken at issue. -/
def Issued.opd (i : Issued) (n : Nat) : Opd := i.opds.getD n { n, place := .imm 0 }

/-- The n-th operand read whole at issue. -/
def Issued.bytes (i : Issued) (n : Nat) : List Byte := i.data.getD n []

/-- What a string instruction that is not over took at issue: it is held between units, and this is no resume (08 R216, 12 R320). -/
def Core.issued (k : Core) : Option Issued := k.held.bind (·.kept)

/-- The count. -/
def StrPlan.count (p : StrPlan) (k : Core) : Nat := k.gNat (p.regs.counts.headD 0)

/-- Steps 2 to 5 of R45 with ranks 7 and 8 for a unit (02 R47). -/
def State.unitFault (s : State) (c : CoreId) (us : List Use) : Option ExcOperand :=
  s.stepFault c us <|> s.rank7 c us <|> s.rank8 c us

/-- Ranks 5 to 8 at issue: register and resume checks, pointer words, step 1 over whole ranges, and the first unit. An instruction that
has issued is past them. -/
def StrPlan.check (p : StrPlan) (c : CoreId) (s : State) : Option ExcOperand :=
  if (s.core c).issued.isSome then none
  else
    match p.regs.fault (s.core c) with
    | some e => some e
    | none =>
      if p.count (s.core c) = 0 then none
      else
        let us := p.whole s
        firstFault (·.pointerFault s c) us <|> capFault us <|> s.unitFault c (p.unit (p.take s) true s).uses

/-- Registers and pointer words read at issue; memory ranges are read unit by unit. -/
def StrPlan.issueUses (p : StrPlan) (c : CoreId) (s : State) : List Use :=
  if (s.core c).issued.isSome ∨ p.count (s.core c) = 0 then [] else (p.whole s).map fun u => { u with mem := none }

/-- A progress commit: RESUME as its word composes it under a USTATE layout, DONE growing by the unit to `d`, and the end of the grace
(06 R180, 07 R207, 09 R243). -/
def State.progressTo (s : State) (c : CoreId) (layout : BitVec 4) (d u : Nat) : State :=
  s.modCore c fun k => { k with
    resume := composeResume (k.rsm layout).1 k.resume (d - k.resDone) (k.rsm layout).2 u
    engine := none
    grace := false
    delay := k.delay.map fun q => { q with begun := 8 } }

/-- The final commit of a string instruction (06 R181, 03 R73). -/
def State.finalCommit (s : State) (c : CoreId) (os : List Opd) : State :=
  (s.updateCursors c os).modCore c fun k => { k with resume := 0 }

/-- One unit: its checks, the collided words it consumes (10 R268), and its body. -/
def StrUnit.run (u : StrUnit) (c : CoreId) (s : State) : Except Stop State :=
  match s.unitFault c u.uses <|> s.markFault c u.uses with
  | some e => .error (.exc e s)
  | none => u.body (s.readied c u.uses)

/-- Runs the units of one issue; `fuel` bounds them, each taking at least one byte. -/
def StrPlan.run (p : StrPlan) (c : CoreId) (i : Issued) : Nat → Bool → State → Except Stop Done
  | 0, _, s => .ok { s }
  | fuel + 1, first, s =>
    let u := p.unit i first s
    match u.run c s with
    | .error x => .error x
    | .ok t => if u.final then .ok { s := t } else p.run c i fuel false t

/-- A string instruction issues, with what it keeps until it is over. -/
def State.startString (s : State) (c : CoreId) (opc : Nat) (w : L64) (i : Issued) : State :=
  s.modCore c fun k => { k with held := some ⟨opc, 8, w, some i⟩ }

/-- Issues a string instruction, or goes on with one that is held: the units from RESUME to the final commit. -/
def StrPlan.exec (p : StrPlan) (c : CoreId) (w : L64) (s : State) : Out :=
  .next (s.issue c p.opc 8 w (p.enc.bad w) (guardOf w) (p.check c) (p.issueUses c) fun s =>
    let k := s.core c
    match k.issued with
    | some i => p.run c i (p.count k + 2) false s
    | none =>
      if p.count k = 0 then done ((s.modCore c p.zero).modCore c fun k => { k with resume := 0 })
      else p.run c (p.take s) (p.count k + 2) true (s.startString c p.opc w (p.take s)))

/-! ## Operands -/

/-- A memory operand of the string group; its element is 1 B. -/
def strA (c : CoreId) (w : L64) (s : State) : Opd := s.resolve c 0 w.sa 1
/-- Operand B. -/
def strB (c : CoreId) (w : L64) (s : State) : Opd := s.resolve c 1 w.sb 1

/-- The same operand over `n` bytes from an offset on; it is no load or store (07 R204). -/
def Use.part (u : Use) (off n : Nat) : Use :=
  u.onMem fun m => { m with addr := m.addr + off, len := n, wtag := Tag.text, plain := false }

/-- A table or pattern at the cursor of C(x), reported as operand C. -/
def tableUse (c : CoreId) (w : L64) (n : Nat) (s : State) : Use :=
  let k := (s.core c).getC (rawAux w)
  { n := 2, mem := some { cap := k, addr := k.cursor.toNat, len := n, rd := true, wr := false, cls := .text } }

/-- Address of that table. -/
def tableAddr (c : CoreId) (w : L64) (s : State) : Nat := ((s.core c).getC (rawAux w)).cursor.toNat

/-- Source text read by a string instruction. -/
def textRead (o : Opd) (n : Nat) : Use := o.use true false n .text Tag.bin
/-- TEXT written by a string instruction. -/
def textWrite (o : Opd) (rd : Bool) (n : Nat) : Use := o.use rd true n .text Tag.text

/-- Bytes left in a 64 B unit. -/
def unitLen (n d : Nat) : Nat := min 64 (n - d)

/-- Stores bytes of a unit with one tag. -/
def State.putText (s : State) (c : CoreId) (n a : Nat) (bs : List Byte) : Except Stop State :=
  if bs.isEmpty then .ok s else s.writeMem c n ⟨a, bs, tagsFor a bs.length Tag.text⟩

/-- Valid resume of the 64 B units (06 Table 6.8): DONE a multiple of 64 below n; USTATE within its layout. -/
def unitResume (maxState : Nat) (k : Core) (n : Nat) : Bool :=
  k.resDone % 64 == 0 && k.resDone < n && k.resState ≤ maxState

/-- Commits a 64 B unit of k bytes: progress while bytes remain, otherwise the final commit. -/
def commitUnit (c : CoreId) (layout : BitVec 4) (n d k u : Nat) (os : List Opd) (s : State) : State :=
  if d + k < n then s.progressTo c layout (d + k) u else s.finalCommit c os

/-! ## Moves, fills and translation -/

/-- Key of an address as the core reaches it, for telling which bytes coincide. -/
def State.place (s : State) (c : CoreId) (a : Nat) : Nat := s.key c a

/-- The k bytes that a byte-by-byte move from sa to da writes (06 R156): a source byte that the move has already written
is read as written. `tr` translates. -/
def State.movedBytes (s : State) (c : CoreId) (da sa k : Nat) (tr : Byte → Byte) : List Byte :=
  let src := s.bytesSeen c sa k
  let kd := s.place c da
  (List.range k).foldl (fun out i =>
    let p := s.place c (sa + i)
    out ++ [tr (if kd ≤ p ∧ p < kd + i then out.getD (p - kd) 0 else src.getD i 0)]) []

/-- The part of a move that a unit makes: k bytes from `sa` to `da`, the whole move's source and destination from `lo` and `dst` over n
bytes, whether LC and SC hold, whether words written earlier in the unit are read as written (06 R156), and whether units go down. -/
structure MovePart where
  da : Nat
  sa : Nat
  k : Nat
  lo : Nat
  dst : Nat
  n : Nat
  caps : Bool
  stage : Bool
  down : Bool

/-- Tags that the words of a unit's destination take from the move (02 R35, R36): an aligned word that the whole move overwrites with one
aligned word takes that word's tag, a capability tag only where its whole pair goes along, and every other word TEXT. A POISON word that
is not copied as one aligned word so becomes TEXT: R35 says so of every other written word, and R30 of no word that is taken apart
(DEDUCED, log entry 35). A CODE tag is copied like any other: R35 copies the source tag, where Table 2.7 has only `TAGCODE` store CODE (DEDUCED,
log entry 167). -/
def State.movedTags (s : State) (c : CoreId) (v : MovePart) : List Tag :=
  let m := s.view c
  let step (acc : List (Nat × Tag × Tag)) (i : Nat) : List (Nat × Tag × Tag) :=
    let w := v.da / 8 + i
    let src (sw : Nat) : Tag :=
      match (if v.stage then acc.find? fun e => e.1 == s.place c sw / 8 else none) with
      | some e => e.2.2
      | none => readTag (s.tagIn m c sw)
    let sw := v.sa + 8 * w - v.da
    let t :=
      if coversWord v.dst v.n w && sw % 8 == 0 then
        let t := src sw
        if isCapTag t then
          let p := sw / 16 * 16
          if v.caps && src p == Tag.capl && src (p + 8) == Tag.caph && decide (v.lo ≤ p ∧ p + 16 ≤ v.lo + v.n)
              && 8 * w % 16 == sw % 16 then t
          else Tag.bin
        else t
      else Tag.text
    acc ++ [(s.place c (8 * w) / 8, t, tagAfter (s.tagIn m c (8 * w)) (coversWord v.da v.k w) t)]
  ((List.range (wordSpan v.da v.k)).foldl step []).map (·.2.1)

/-- Tag that a unit's write gives a word: a word that the unit fills only in part has no capability tag until the move has filled it. -/
def MovePart.wtag (v : MovePart) (i : Nat) (t : Tag) : Tag :=
  if isCapTag t && !coversWord v.da v.k (v.da / 8 + i) then Tag.bin else t

/-- The word that straddles two units of a move takes its tag with the unit that fills its last bytes; a capability word brings its pair's
tags with it. -/
def MovePart.closing (v : MovePart) (tags : List Tag) : Option Write :=
  (List.range tags.length).findSome? fun i =>
    let w := v.da / 8 + i
    let t := tags.getD i Tag.bin
    if coversWord v.dst v.n w && !coversWord v.da v.k w
        && (if v.down then decide (v.da ≤ 8 * w) else decide (8 * w + 8 ≤ v.da + v.k)) then
      some (if isCapTag t then ⟨8 * w / 16 * 16, [], [Tag.capl, Tag.caph]⟩ else ⟨8 * w, [], [t]⟩)
    else none

/-- Whether both capabilities of a move allow capability tags (06 R36). -/
def moveCaps (a b : Opd) : Bool :=
  match a.place, b.place with
  | .mem ca _, .mem cb _ => ca.has .sc && cb.has .lc
  | _, _ => false

/-- Register checks of the group with one count. -/
def oneCount (w : L64) (valid : Core → Nat → Bool) : StrRegs := { counts := [rawCount w], valid }

/-- What a plan over operands A and B takes at issue, with the bytes read whole. -/
def takeAB (c : CoreId) (w : L64) (data : State → List (List Byte)) (s : State) : Issued :=
  ⟨[strA c w s, strB c w s], data s⟩

/-- `SMOV` and `SMOVA`: units of 64 B, from the top where `down` holds. -/
def movePlan (opc : Nat) (c : CoreId) (w : L64) (maxState : Nat) (stage : Bool) (down : Core → Opd → Opd → Nat → Bool) : StrPlan where
  opc := opc
  enc := { a := .w, b := .m, c := .raw, zero := fun w => rawAux w == 0 && rawByte w == 0 }
  regs := oneCount w (unitResume maxState)
  zero := id
  whole := fun s =>
    let n := (s.core c).gNat (rawCount w)
    [textWrite (strA c w s) false n, (strB c w s).use true false n .move Tag.bin]
  take := takeAB c w fun _ => []
  unit := fun i _ s =>
    let n := (s.core c).gNat (rawCount w)
    let a := i.opd 0
    let b := i.opd 1
    let d := (s.core c).resDone
    let k := unitLen n d
    let dn := down (s.core c) a b n
    let off := if dn then n - d - k else d
    let v : MovePart := ⟨a.addr + off, b.addr + off, k, b.addr, a.addr, n, moveCaps a b, stage, dn⟩
    let tags := s.movedTags c v
    let wtags := tags.mapIdx v.wtag
    { uses := [(textWrite a false n).part off k |>.onMem fun m => { m with wtags }
              , ((b.use true false n .move Tag.bin).part off k)]
      final := decide (n ≤ d + k)
      body := fun s => do
        let bs := if stage then s.movedBytes c v.da v.sa k id else s.bytesSeen c v.sa k
        let t ← s.writeMem c 0 ⟨v.da, bs, wtags⟩
        let t ← match v.closing tags with
          | some x => t.writeMem c 0 x
          | none => .ok t
        .ok (commitUnit c (BitVec.ofNat 4 maxState) n d k (if dn then 1 else 0) [a, b] t) }

/-- `SMOV` (06 R156). -/
def planSmov (c : CoreId) (w : L64) : StrPlan := movePlan 0x180 c w 0 true fun _ _ _ _ => false

/-- Direction of `SMOVA`: RESUME's at a resume, otherwise descending when A lies above B within it, both as taken at issue (06 R157). -/
def moveDown (k : Core) (a b : Opd) (n : Nat) : Bool :=
  if k.resume = 0 then decide (b.addr < a.addr ∧ a.addr < b.addr + n) else k.resState.testBit 0

/-- `SMOVA` (06 R157). -/
def planSmova (c : CoreId) (w : L64) : StrPlan := movePlan 0x181 c w 1 false moveDown

/-- `SFIL` (06 R158). -/
def planSfil (c : CoreId) (w : L64) : StrPlan where
  opc := 0x187
  enc := { a := .w, b := .unused, c := .raw, zero := fun w => rawAux w == 0 }
  regs := oneCount w (unitResume 0)
  zero := id
  whole := fun s => [textWrite (strA c w s) false ((s.core c).gNat (rawCount w))]
  take := fun s => ⟨[strA c w s], []⟩
  unit := fun i _ s =>
    let n := (s.core c).gNat (rawCount w)
    let a := i.opd 0
    let d := (s.core c).resDone
    let k := unitLen n d
    { uses := [(textWrite a false n).part d k]
      final := decide (n ≤ d + k)
      body := fun s => do
        let t ← s.putText c 0 (a.addr + d) (List.replicate k (rawByte w))
        .ok (commitUnit c 0 n d k 0 [a] t) }

/-- Translation of a byte by a 256 B table. -/
def translate (tab : List Byte) (b : Byte) : Byte := tab.getD b.toNat 0

/-- `SMVT` (06 R159): the table at C(x) is read at issue and at each resume. -/
def planSmvt (c : CoreId) (w : L64) : StrPlan where
  opc := 0x182
  enc := { a := .w, b := .m, c := .raw, zero := fun w => rawByte w == 0 }
  regs := oneCount w (unitResume 0)
  zero := id
  whole := fun s =>
    let n := (s.core c).gNat (rawCount w)
    [textWrite (strA c w s) false n, textRead (strB c w s) n, tableUse c w 256 s]
  take := takeAB c w fun s => [s.bytesSeen c (tableAddr c w s) 256]
  unit := fun i first s =>
    let n := (s.core c).gNat (rawCount w)
    let a := i.opd 0
    let b := i.opd 1
    let d := (s.core c).resDone
    let k := unitLen n d
    { uses := [(textWrite a false n).part d k, (textRead b n).part d k]
        ++ if first then [tableUse c w 256 s] else []
      final := decide (n ≤ d + k)
      body := fun s => do
        let t ← s.putText c 0 (a.addr + d) (s.movedBytes c (a.addr + d) (b.addr + d) k (translate (i.bytes 0)))
        .ok (commitUnit c 0 n d k 0 [a, b] t) }

/-- `SXLT` (06 R159): the table at B is read at issue and at each resume. -/
def planSxlt (c : CoreId) (w : L64) : StrPlan where
  opc := 0x183
  enc := { a := .w, b := .m, c := .raw, zero := fun w => rawAux w == 0 && rawByte w == 0 }
  regs := oneCount w (unitResume 0)
  zero := id
  whole := fun s => [textWrite (strA c w s) true ((s.core c).gNat (rawCount w)), textRead (strB c w s) 256]
  take := takeAB c w fun s => [s.bytesSeen c (strB c w s).addr 256]
  unit := fun i first s =>
    let n := (s.core c).gNat (rawCount w)
    let a := i.opd 0
    let b := i.opd 1
    let d := (s.core c).resDone
    let k := unitLen n d
    { uses := [(textWrite a true n).part d k] ++ if first then [textRead b 256] else []
      final := decide (n ≤ d + k)
      body := fun s => do
        let t ← s.putText c 0 (a.addr + d) ((s.bytesSeen c (a.addr + d) k).map (translate (i.bytes 0)))
        .ok (commitUnit c 0 n d k 0 [a, b] t) }

/-! ## Compare, find and check -/

/-- FLAGS with bits 0 to 3 given as Z, N, V, C. -/
def strFlags (z n v cf : Bool) (f : Word) : Word := setBit (setBit (setBit (setBit f 0 z) 1 n) 2 v) 3 cf

/-- `SCMP` (06 R161): it stops at the first unequal position and reads nothing after it. -/
def planScmp (c : CoreId) (w : L64) : StrPlan where
  opc := 0x184
  enc := { a := .m, b := .m, c := .raw }
  regs := { counts := [rawCount w], aux := [rawAux w], valid := unitResume 0 }
  zero := fun k => { k with flags := strFlags true false false false k.flags }
  whole := fun s =>
    let n := (s.core c).gNat (rawCount w)
    [textRead (strA c w s) n, textRead (strB c w s) (min n ((s.core c).gNat (rawAux w)))]
  take := takeAB c w fun _ => []
  unit := fun i _ s =>
    let n := (s.core c).gNat (rawCount w)
    let lb := min n ((s.core c).gNat (rawAux w))
    let a := i.opd 0
    let b := i.opd 1
    let d := (s.core c).resDone
    let k := unitLen n d
    let xs := s.bytesSeen c (a.addr + d) k
    let ys := s.bytesSeen c (b.addr + d) (min k (lb - d)) ++ List.replicate (k - (lb - d)) (rawByte w)
    let stop := (List.range k).find? fun i => xs.getD i 0 != ys.getD i 0
    let cnt := (stop.map (· + 1)).getD k
    { uses := [(textRead a n).part d cnt, (textRead b lb).part d (min cnt (lb - d))]
      final := stop.isSome || decide (n ≤ d + k)
      body := fun s =>
        if stop.isNone && decide (d + k < n) then .ok (s.progressTo c 0 (d + k) 0)
        else
          let less := (stop.map fun i => decide ((xs.getD i 0).toNat < (ys.getD i 0).toNat)).getD false
          .ok ((s.modCore c fun q => { q with flags := strFlags stop.isNone less false false q.flags }).finalCommit c
            [a, b]) }

/-- Whether a byte is in a class (06 R162). -/
def inClass (map : List Byte) (b : Byte) : Bool := (map.getD (b.toNat / 8) 0).getLsbD (b.toNat % 8)

/-- `SFND` and `SCHK` (06 R163): the first byte whose membership is `want`. -/
def findPlan (want : Bool) (c : CoreId) (w : L64) : StrPlan where
  opc := if want then 0x185 else 0x186
  enc := { a := .m, b := .m, c := .raw, zero := fun w => rawByte w == 0 }
  regs := oneCount w (unitResume 0)
  zero := fun k => { k with flags := setBit k.flags 0 true }.setG (rawAux w) 0 Tag.bin
  whole := fun s => [textRead (strA c w s) ((s.core c).gNat (rawCount w)), textRead (strB c w s) 32]
  take := takeAB c w fun s => [s.bytesSeen c (strB c w s).addr 32]
  unit := fun i first s =>
    let n := (s.core c).gNat (rawCount w)
    let a := i.opd 0
    let b := i.opd 1
    let d := (s.core c).resDone
    let k := unitLen n d
    let map := i.bytes 0
    let xs := s.bytesSeen c (a.addr + d) k
    let stop := (List.range k).find? fun i => inClass map (xs.getD i 0) == want
    let cnt := (stop.map (· + 1)).getD k
    { uses := [(textRead a n).part d cnt] ++ if first then [textRead b 32] else []
      final := stop.isSome || decide (n ≤ d + k)
      body := fun s =>
        if stop.isNone && decide (d + k < n) then .ok (s.progressTo c 0 (d + k) 0)
        else
          let r := (stop.map (d + ·)).getD n
          .ok ((s.modCore c fun q =>
            { q with flags := setBit q.flags 0 stop.isNone }.setG (rawAux w) (BitVec.ofNat 64 r) Tag.bin).finalCommit c
              [a, b]) }

/-- `SFND` (06 R163). -/
def planSfnd (c : CoreId) (w : L64) : StrPlan := findPlan true c w
/-- `SCHK` (06 R163). -/
def planSchk (c : CoreId) (w : L64) : StrPlan := findPlan false c w

/-! ## Transcoding -/

/-- One character at the head of a source: its length, the bytes examined, its output, and whether it was replaced. A
character that may not be written and has no replacement has no output. -/
structure XChar where
  len : Nat
  seen : Nat
  out : Option (List Byte)
  replaced : Bool
  deriving DecidableEq, Repr

/-- `SXU8` of one Latin-1 byte (06 R164). -/
def toUtf8 (b : Byte) : XChar :=
  ⟨1, 1, some (if b.toNat < 0x80 then [b] else if b.toNat < 0xC0 then [0xC2, b] else [0xC3, b - 0x40]), false⟩

/-- Continuation bytes that a first byte calls for, with the range of the second byte (06 Table 6.3). -/
def utf8Lead (b : Nat) : Option (Nat × Nat × Nat) :=
  if 0xC2 ≤ b ∧ b ≤ 0xDF then some (1, 0x80, 0xBF)
  else if b = 0xE0 then some (2, 0xA0, 0xBF)
  else if b = 0xED then some (2, 0x80, 0x9F)
  else if 0xE1 ≤ b ∧ b ≤ 0xEF then some (2, 0x80, 0xBF)
  else if b = 0xF0 then some (3, 0x90, 0xBF)
  else if 0xF1 ≤ b ∧ b ≤ 0xF3 then some (3, 0x80, 0xBF)
  else if b = 0xF4 then some (3, 0x80, 0x8F)
  else none

/-- Continuation bytes at the head of a source that continue a sequence, at most `need`; [lo, hi] bounds the first. -/
def contBytes : Nat → Nat → Nat → List Byte → List Byte
  | need + 1, lo, hi, b :: t =>
    if lo ≤ b.toNat ∧ b.toNat ≤ hi then b :: contBytes need 0x80 0xBF t else []
  | _, _, _, _ => []

/-- A code point or malformed unit at the head of a source: its length, the bytes examined, and the code point
(06 R165). -/
def utf8Unit (bs : List Byte) : Nat × Nat × Option Nat :=
  match bs with
  | [] => (1, 1, none)
  | b :: t =>
    if b.toNat < 0x80 then (1, 1, some b.toNat)
    else
      match utf8Lead b.toNat with
      | none => (1, 1, none)
      | some (need, lo, hi) =>
        let cs := contBytes need lo hi t
        if cs.length = need then
          (need + 1, need + 1, some (cs.foldl (fun a x => a * 64 + x.toNat % 64) (b.toNat % 2 ^ (6 - need))))
        else (cs.length + 1, min bs.length (cs.length + 2), none)

/-- `SXL1` of one character (06 R166). -/
def toLatin1 (rep : Byte) (bs : List Byte) : XChar :=
  match utf8Unit bs with
  | (n, seen, some p) =>
    if p ≤ 0xFF then ⟨n, seen, some [BitVec.ofNat 8 p], false⟩
    else ⟨n, seen, if rep = 0 then none else some [rep], true⟩
  | (n, seen, none) => ⟨n, seen, if rep = 0 then none else some [rep], true⟩

/-- Why a transcoding unit ends. -/
inductive XEnd where
  | source | unit | room | input
  deriving DecidableEq, Repr

/-- A transcoding unit: bytes out, source bytes used and examined, a replacement made, and its end. -/
structure XUnit where
  out : List Byte
  used : Nat
  seen : Nat
  replaced : Bool
  stop : XEnd
  deriving DecidableEq, Repr

/-- Transcodes characters until the source ends, 64 B are full, the next would exceed the room, or it may not be written
(06 R166, R167, Table 6.8). -/
def xloop (conv : List Byte → XChar) (room : Nat) : Nat → List Byte → XUnit → XUnit
  | 0, _, u => u
  | fuel + 1, src, u =>
    if src.isEmpty then { u with stop := .source }
    else if u.out.length = 64 ∧ 64 < room then { u with stop := .unit }
    else
      let x := conv src
      let u := { u with seen := max u.seen (u.used + x.seen) }
      match x.out with
      | none => { u with stop := .input }
      | some bs =>
        if room < u.out.length + bs.length then { u with stop := .room }
        else if 64 < u.out.length + bs.length then { u with stop := .unit }
        else xloop conv room fuel (src.drop x.len)
          { u with out := u.out ++ bs, used := u.used + x.len, replaced := u.replaced || x.replaced }

/-- `SXU8` and `SXL1` (06 R164–R167). A source character that a unit examines and does not consume (it ends the unit, lacks room or may not be
written) is checked with that unit, for `SXU8` with its capacity already full too: R155 and R47 speak of the unit that consumes a byte only
(DESIGN CHOICE, log entry 38). -/
def transPlan (conv : List Byte → XChar) (zero : L64 → Bool) (valid : Core → Nat → Bool) (latin : Bool) (c : CoreId)
    (w : L64) : StrPlan where
  opc := if latin then 0x189 else 0x188
  enc := { a := .w, b := .m, c := .raw, zero }
  regs := { counts := [rawCount w], aux := [rawAux w], prog := [rawAux w + 1], pair := some (rawAux w), valid }
  zero := fun k => ({ k with flags := strFlags true false false false k.flags }.setG (rawAux w) 0 Tag.bin).setG
    (rawAux w + 1) 0 Tag.bin
  whole := fun s =>
    [textWrite (strA c w s) false ((s.core c).gNat (rawAux w)), textRead (strB c w s) ((s.core c).gNat (rawCount w))]
  take := takeAB c w fun _ => []
  unit := fun i _ s =>
    let n := (s.core c).gNat (rawCount w)
    let cap := (s.core c).gNat (rawAux w)
    let a := i.opd 0
    let b := i.opd 1
    let k := s.core c
    let d := k.resDone
    let con := if k.resume = 0 then 0 else k.gNat (rawAux w + 1)
    let u := xloop conv (cap - d) 66 (s.bytesSeen c (b.addr + con) (min (n - con) 260)) ⟨[], 0, 0, false, .unit⟩
    let rep := u.replaced || k.resState.testBit 0
    let ncon := con + u.used
    let nd := d + u.out.length
    { uses := [(textWrite a false cap).part d u.out.length, (textRead b n).part con u.seen]
      final := decide (u.stop ≠ .unit)
      body := fun s => do
        let t ← s.putText c 0 (a.addr + d) u.out
        let t := t.modCore c fun q => q.setG (rawAux w + 1) (BitVec.ofNat 64 ncon) Tag.bin
        if u.stop = .unit then .ok (t.progressTo c (if latin then 2 else 0) nd (if latin && rep then 1 else 0))
        else
          .ok ((t.modCore c fun q =>
            { q with flags := strFlags (ncon == n) (u.stop == XEnd.room) (latin && rep) (u.stop == XEnd.input) q.flags }.setG
              (rawAux w) (BitVec.ofNat 64 nd) Tag.bin).finalCommit c [a, b]) }

/-- `SXU8` (06 R164). -/
def planSxu8 (c : CoreId) (w : L64) : StrPlan :=
  transPlan (fun bs => toUtf8 (bs.headD 0)) (fun w => rawByte w == 0)
    (fun k n =>
      let con := k.gNat (rawAux w + 1)
      let d := k.resDone
      k.resState == 0 && con ≤ d && d ≤ 2 * con && d < k.gNat (rawAux w) && con < n) false c w

/-- `SXL1` (06 R166). -/
def planSxl1 (c : CoreId) (w : L64) : StrPlan :=
  transPlan (toLatin1 (rawByte w)) (fun _ => true)
    (fun k n =>
      let con := k.gNat (rawAux w + 1)
      let d := k.resDone
      k.resState ≤ 1 && d % 64 == 0 && d ≤ con && con ≤ 4 * d && d < k.gNat (rawAux w) && con < n) true c w

/-! ## The edit machine -/

/-- CURRENCY.FILL. -/
def Core.fill (k : Core) : Byte := k.currency.extractLsb' 35 8
/-- CURRENCY.TEXT, its first LEN bytes (02 Table 2.6). -/
def Core.currencyText (k : Core) : List Byte := (toLe 4 k.currency.toNat).take (getField k.currency 32 3)

/-- Whether a pattern byte is a selector (06 R170). -/
def isSelector (b : Byte) : Bool := b == 0x10 || b == 0x11

/-- Selectors of a pattern. -/
def selectors (pat : List Byte) : Nat := (pat.filter isSelector).length

/-- The edit machine between two pattern bytes (06 R171): selectors consumed, LEAD, SEG (0 none, 1 printing, 2 suppressed),
the run start q while FLT holds, the bytes written, the position of the first byte to write, and the amount offset once
fixed. -/
structure EditSt where
  sel : Nat
  lead : Bool
  seg : Nat
  flt : Option Int
  out : List Byte
  low : Nat
  amount : Option Nat
  deriving DecidableEq, Repr

/-- What the edit machine prints: the digit of each selector, the sign, F, ZN, and the currency bytes. -/
structure EditEnv where
  digit : Nat → Nat
  neg : Bool
  fill : Byte
  zn : Nat
  cur : List Byte

/-- Places the currency before position p over the run from q (06 R172). Positions below offset 0 of A, which a resume with DONE 0 and QROOM above
0 (valid by Table 6.8) would name, are dropped (DESIGN CHOICE, log entry 133). `out` holds the bytes from position `p0` to
p − 1; the answer is where the currency starts and the bytes with it placed, from the lower of `p0` and that start. -/
def placeCurrency (cur : List Byte) (q : Int) (p : Nat) (out : List Byte) : Nat × List Byte :=
  let lo := (max (q + 1) ((p : Int) - cur.length)).toNat
  let m := p - lo
  (lo, out.take (out.length - m) ++ cur.drop (cur.length - m))

/-- One pattern byte at position p (06 Table 6.6). -/
def editStep (e : EditEnv) (p : Nat) (st : EditSt) (b : Byte) : EditSt :=
  if isSelector b then
    let d := e.digit st.sel
    let st := { st with sel := st.sel + 1, seg := 0 }
    if b = 0x11 ∨ st.lead = false ∨ d ≠ 0 then
      let (lo, out) := match (if st.lead then st.flt else none) with
        | some q => placeCurrency e.cur q p st.out
        | none => (p, st.out)
      { st with
        lead := false, flt := if st.lead then none else st.flt, out := out ++ [BitVec.ofNat 8 (e.zn * 16 + d)], low := min st.low lo
        amount := st.amount <|> some lo }
    else { st with out := st.out ++ [e.fill] }
  else match b.toNat with
    | 0x12 => { st with lead := true, flt := none, seg := 0, out := st.out ++ [e.fill] }
    | 0x13 => { st with seg := if e.neg then 1 else 2, flt := none, out := st.out ++ [e.fill] }
    | 0x14 => { st with seg := if e.neg then 2 else 1, flt := none, out := st.out ++ [e.fill] }
    | 0x15 => { st with flt := if st.lead then some p else st.flt, seg := 0, out := st.out ++ [e.fill] }
    | _ => { st with out := st.out ++ [if st.seg = 1 ∨ (st.seg = 0 ∧ st.lead = false) then b else e.fill] }

/-- The edit machine over pattern bytes from position p on. -/
def editRun (e : EditEnv) : Nat → EditSt → List Byte → EditSt
  | _, st, [] => st
  | p, st, b :: t => editRun e (p + 1) (editStep e p st b) t

/-- Edit state as USTATE records it (06 Table 6.8). -/
def EditSt.ustate (st : EditSt) (d : Nat) : Nat :=
  let qroom := match st.flt with
    | some q => min 4 ((d : Int) - 1 - q).toNat
    | none => 0
  st.sel % 64 + (if st.lead then 64 else 0) + st.seg * 128 + (if st.flt.isSome then 512 else 0) + qroom * 1024

/-- Edit state at RESUME (06 R171, R172). The bytes below DONE that the currency may take are put before the unit; each
is F unless the currency covers it. -/
def Core.editState (k : Core) (fill : Byte) : EditSt :=
  let u := k.resState
  if k.resume = 0 then ⟨0, true, 0, none, [], 0, none⟩
  else
    let room := u / 1024 % 8
    ⟨u % 64, u.testBit 6, u / 128 % 4, if u.testBit 9 then some ((k.resDone : Int) - 1 - room) else none,
      if u.testBit 9 then List.replicate room fill else [], k.resDone, none⟩

/-- Valid resume of `EDIT` (06 Table 6.8). -/
def editResume (k : Core) (n : Nat) : Bool :=
  let u := k.resState
  let room := u / 1024 % 8
  k.resDone % 64 == 0 && k.resDone < n && u / 128 % 4 != 3 && room ≤ 4 && (u.testBit 9 || room == 0) && u < 2 ^ 13

/-- Bytes of a pattern that raise OPERAND_FORM, or too many selectors (06 R168, R170, R173 step 4). At a resume the limit of 63 counts the
selectors that USTATE says are consumed together with those left, as R170 counts the pattern's (DEDUCED, log entry 133). -/
def badPattern (sel : Nat) (pat : List Byte) : Bool :=
  pat.any (fun b => b == 0x16 || b == 0x17) || 63 < sel + selectors pat

/-- Packed source length of `EDIT` and `SCAN`. -/
def editLen (w : L64) : Nat := getField w.sc 0 5 + 1

/-- `EDIT` and `EDITM` (06 R168–R174). `mark` holds the register of the amount offset. At a resume a value of it below n is the offset as fixed,
and any other says that no digit has printed, whatever a handler has made of n, of the register or of LEAD (DEDUCED, log entry 133). The access checks of a resume are over all n bytes of A,
those committed among them: R155 makes them on whole operands, and Table 6.9 speaks of bytes, which are not read again (DEDUCED, log entry
168). -/
def editPlan (opc : Nat) (mark : Option (BitVec 4)) (c : CoreId) (w : L64) : StrPlan where
  opc := opc
  enc := { a := .w, b := .m, c := .raw, zero := fun w => getField w.sc 5 3 == 0 && (mark.isSome || rawAux w == 0) }
  regs := { counts := [rawCount w], prog := mark.toList, pattern := true, valid := editResume }
  zero := fun k => match mark with
    | some x => k.setG x 0 Tag.bin
    | none => k
  whole := fun s =>
    [textWrite (strA c w s) true ((s.core c).gNat (rawCount w)), (strB c w s).use true false (editLen w) .pdec Tag.bin]
  take := takeAB c w fun s =>
    [s.bytesSeen c (strA c w s).addr ((s.core c).gNat (rawCount w)), s.field c (strB c w s) (editLen w)]
  unit := fun i first s =>
    let n := (s.core c).gNat (rawCount w)
    let l := editLen w
    let a := i.opd 0
    let b := i.opd 1
    let k := s.core c
    let d := k.resDone
    let nd := min n (d + 64)
    let pat := i.bytes 0
    { uses := if first then [textWrite a true n, b.use true false l .pdec Tag.bin] else []
      final := decide (n ≤ nd)
      body := fun s =>
        match packedValue (i.bytes 1) with
        | .error e => .error (.exc (dataExc opc b e) s)
        | .ok v =>
          let st0 := k.editState k.fill
          let rest := pat.drop d
          if badPattern st0.sel rest then .error (.exc (k.formExc 0 9) s)
          else
            let nsel := st0.sel + selectors rest
            let nd2 := 2 * l - 1
            let m := v.natAbs
            let env : EditEnv :=
              { digit := fun j => if nsel ≤ j + nd2 then m / 10 ^ (nsel - 1 - j) % 10 else 0
                neg := decide (v < 0), fill := k.fill, zn := k.zn.toNat, cur := k.currencyText }
            let st := editRun env d st0 (rest.take (nd - d))
            let back := st0.out.length
            let mk := match mark with
              | none => none
              | some x =>
                let g := k.gNat x
                some (x, if k.resume ≠ 0 ∧ g < n then g else (st.amount.getD n))
            do
              let t ← s.putText c 0 (a.addr + st.low) (st.out.drop (back - (d - st.low)))
              let t := match mk with
                | some (x, v) => t.modCore c fun q => q.setG x (BitVec.ofNat 64 v) Tag.bin
                | none => t
              if nd < n then .ok (t.progressTo c 3 nd (st.ustate nd))
              else .ok ((t.decFlags c (signClass v) (some (decide (m / 10 ^ nsel ≠ 0)))).finalCommit c [a, b]) }

/-- `EDIT` (06 R171). -/
def planEdit (c : CoreId) (w : L64) : StrPlan := editPlan 0x18A none c w
/-- `EDITM` (06 R174). -/
def planEditm (c : CoreId) (w : L64) : StrPlan := editPlan 0x18B (some (rawAux w)) c w

/-! ## Scan -/

/-- The currency run of the scan: no FLT; FLT at the position after q; FLT with an F since; or a guessed placing with so
many currency bytes to come before the digit. -/
inductive ScanFlt where
  | off
  | fresh
  | run
  | placing (rem : Nat)
  deriving DecidableEq, Repr

/-- One way of reading the text (06 R175): text bytes matched, whether the match has ended and the rest of E(v) is free,
LEAD, SEG, the currency run, a literal left out that still needs a later digit, the sign, and the magnitude printed. -/
structure ScanSt where
  t : Nat
  free : Bool
  lead : Bool
  seg : Nat
  flt : ScanFlt
  owes : Bool
  neg : Bool
  m : Nat
  deriving DecidableEq, Repr

/-- What the scan reads by: text, F, ZN, currency, options, digits of a value, selectors. -/
structure ScanEnv where
  text : List Byte
  fill : Byte
  zn : Nat
  cur : List Byte
  grp : Bool
  spc : Bool
  lz : Bool
  digits : Nat
  sels : Nat

/-- E(v) gives one byte of a set: matched, or the match ends before it. -/
def ScanEnv.give (e : ScanEnv) (ok : Byte → Bool) (st : ScanSt) : List ScanSt :=
  if st.free then [st]
  else
    let on := match e.text[st.t]? with
      | some b => if ok b then [{ st with t := st.t + 1 }] else []
      | none => []
    on ++ [{ st with free := true }]

/-- A byte written as F (06 Table 6.7). -/
def ScanEnv.giveFill (e : ScanEnv) (dg : Bool) (st : ScanSt) : List ScanSt :=
  e.give (fun b => b == e.fill || (e.spc && b == 0x20) || (dg && e.lz && b.toNat == e.zn * 16)) st

/-- A position that prints no digit while LEAD = 1 and SEG = none: F, or a byte of the currency that a digit still to come
places here (06 R172). -/
def ScanEnv.giveIdle (e : ScanEnv) (dg : Bool) (st : ScanSt) : List ScanSt :=
  let l := e.cur.length
  let place (rem : Nat) : List ScanSt :=
    e.give (fun b => some b == e.cur[l - rem]?) { st with flt := .placing (rem - 1) }
  match st.flt with
  | .off => e.giveFill dg st
  | .fresh => e.giveFill dg { st with flt := .run } ++ (List.range l).flatMap fun i => place (i + 1)
  | .run => e.giveFill dg st ++ (if l = 0 then [] else place l)
  | .placing 0 => []
  | .placing rem => place rem

/-- Whether a digit may print here while LEAD = 1. -/
def ScanEnv.mayPrint (e : ScanEnv) (f : ScanFlt) : Bool :=
  match f with
  | .off | .fresh => true
  | .run => e.cur.isEmpty
  | .placing rem => rem == 0

/-- A selector prints a digit. -/
def ScanEnv.giveDigit (e : ScanEnv) (j : Nat) (kept : Bool) (st : ScanSt) : List ScanSt :=
  if st.lead && !e.mayPrint st.flt then []
  else
    (List.range 10).flatMap fun d =>
      if (st.lead && !kept && d == 0) || (decide (j + e.digits < e.sels) && d != 0) then []
      else e.give (fun b => b.toNat == e.zn * 16 + d)
        { st with lead := false, seg := 0, flt := .off, owes := false, m := st.m * 10 + d }

/-- Whether a currency is being placed. -/
def ScanFlt.busy : ScanFlt → Bool
  | .placing _ => true
  | _ => false

/-- One pattern byte, the j-th selector if it is one (06 Table 6.6). -/
def ScanEnv.step (e : ScanEnv) (j : Nat) (b : Byte) (st : ScanSt) : List ScanSt :=
  match b.toNat with
  | 0x10 =>
    e.giveDigit j false st
      ++ (if st.lead then (e.giveIdle true { st with seg := 0, m := st.m * 10 }) else [])
  | 0x11 => e.giveDigit j true st
  | 0x12 => if st.flt.busy then [] else e.giveFill false { st with lead := true, flt := .off, seg := 0 }
  | 0x13 => if st.flt.busy then [] else e.giveFill false { st with seg := if st.neg then 1 else 2, flt := .off }
  | 0x14 => if st.flt.busy then [] else e.giveFill false { st with seg := if st.neg then 2 else 1, flt := .off }
  | 0x15 =>
    if st.flt.busy then []
    else e.giveFill false { st with flt := if st.lead then .fresh else st.flt, seg := 0 }
  | _ =>
    if st.seg = 1 then e.give (· == b) st
    else if st.seg = 2 then e.giveFill false st
    else if st.lead then e.giveIdle false st
    else e.give (· == b) st ++ (if e.grp then [{ st with owes := true }] else [])

/-- Whether two ways of reading go on alike; a magnitude of zero is kept apart, since zero is never negative. -/
def ScanSt.alike (x y : ScanSt) : Bool :=
  (x.free == y.free) && (x.free || x.t == y.t) && x.lead == y.lead && x.seg == y.seg && x.flt == y.flt && x.owes == y.owes
    && x.neg == y.neg && (x.m == 0) == (y.m == 0)

/-- Of two alike, the one that matters: the lesser magnitude, or the longer match once it has ended. -/
def ScanSt.better (x y : ScanSt) : ScanSt :=
  if x.free then (if y.t ≤ x.t then x else y) else if x.m ≤ y.m then x else y

/-- Adds a way of reading to those kept. -/
def addScan (x : ScanSt) : List ScanSt → List ScanSt
  | [] => [x]
  | y :: t => if x.alike y then x.better y :: t else y :: addScan x t

/-- All ways of reading after a pattern. -/
def ScanEnv.run (e : ScanEnv) : Nat → List ScanSt → List Byte → List ScanSt
  | _, sts, [] => sts
  | j, sts, b :: t =>
    e.run (if isSelector b then j + 1 else j) ((sts.flatMap (e.step j b)).foldl (fun acc x => addScan x acc) []) t

/-- Magnitude of the least value that a finished reading stands for: a negative zero needs a digit that is not printed
(06 R170, R171). -/
def ScanEnv.value (e : ScanEnv) (st : ScanSt) : Option Nat :=
  if st.flt.busy || st.owes then none
  else if st.neg && st.m == 0 then (if e.sels < e.digits then some (10 ^ e.sels) else none)
  else some st.m

/-- Answer of a scan: the value taken, if the text is accepted, and the length of the matching prefix (06 R176). -/
def ScanEnv.answer (e : ScanEnv) (pat : List Byte) : Option Int × Nat :=
  let start : ScanSt := ⟨0, false, true, 0, .off, false, false, 0⟩
  let ends := e.run 0 [start, { start with neg := true }] pat
  let good := ends.filterMap fun st => (e.value st).map fun m => (st, m)
  let full := good.filter fun x => !x.1.free && x.1.t == e.text.length
  let best := full.foldl (fun (b : Option (Nat × Bool)) x =>
    match b with
    | none => some (x.2, x.1.neg)
    | some (m, neg) => if x.2 < m ∨ (x.2 = m ∧ neg ∧ ¬ x.1.neg) then some (x.2, x.1.neg) else b) none
  (best.map fun (m, neg) => if neg then -(m : Int) else m, good.foldl (fun r x => max r x.1.t) 0)

/-- `SCAN` (06 R175–R177): no progress commit. -/
def planScan (c : CoreId) (w : L64) : StrPlan where
  opc := 0x18C
  enc := { a := .w, b := .m, c := .raw }
  regs := { counts := [rawCount w, rawCount w + 1], pattern := true, pair := some (rawCount w), valid := fun _ _ => false }
  zero := fun k => ((k.setP 6 false).setP 7 false).setG (rawCount w + 1) 0 Tag.bin
  whole := fun s =>
    [(strA c w s).use false true (editLen w) .pdec Tag.pdec, textRead (strB c w s) ((s.core c).gNat (rawCount w + 1)),
      tableUse c w ((s.core c).gNat (rawCount w)) s]
  take := takeAB c w fun s => [s.bytesSeen c (tableAddr c w s) ((s.core c).gNat (rawCount w)),
    s.bytesSeen c (strB c w s).addr ((s.core c).gNat (rawCount w + 1))]
  unit := fun i first s =>
    let k := s.core c
    let n := k.gNat (rawCount w)
    let tl := k.gNat (rawCount w + 1)
    let l := editLen w
    let a := i.opd 0
    let b := i.opd 1
    { uses := [a.use false true l .pdec Tag.pdec] ++ if first then [textRead b tl, tableUse c w n s] else []
      final := true
      body := fun s =>
        let pat := i.bytes 0
        if badPattern 0 pat then .error (.exc (k.formExc 2 9) s)
        else
          let env : ScanEnv :=
            { text := i.bytes 1, fill := k.fill, zn := k.zn.toNat, cur := k.currencyText
              grp := w.sc.getLsbD 5, spc := w.sc.getLsbD 6, lz := w.sc.getLsbD 7
              digits := 2 * l - 1, sels := selectors pat }
          let r := env.answer pat
          do
            let t ← match r.1 with
              | some v => s.putField c a ((reduce (2 * l - 1) v).packed l) Tag.pdec
              | none => .ok s
            .ok ((t.modCore c fun q =>
              ((q.setP 6 r.1.isSome).setP 7 ((r.1.map fun v => decide (v < 0)).getD false)).setG (rawCount w + 1)
                (BitVec.ofNat 64 r.2) Tag.bin).finalCommit c [a, b]) }

/-! ## Instructions -/

/-- `SMOV` (06 R156). -/
def execSmov (c : CoreId) (w : L64) (s : State) : Out := (planSmov c w).exec c w s
/-- `SMOVA` (06 R157). -/
def execSmova (c : CoreId) (w : L64) (s : State) : Out := (planSmova c w).exec c w s
/-- `SFIL` (06 R158). -/
def execSfil (c : CoreId) (w : L64) (s : State) : Out := (planSfil c w).exec c w s
/-- `SMVT` (06 R159). -/
def execSmvt (c : CoreId) (w : L64) (s : State) : Out := (planSmvt c w).exec c w s
/-- `SXLT` (06 R159). -/
def execSxlt (c : CoreId) (w : L64) (s : State) : Out := (planSxlt c w).exec c w s
/-- `SCMP` (06 R161). -/
def execScmp (c : CoreId) (w : L64) (s : State) : Out := (planScmp c w).exec c w s
/-- `SFND` (06 R163). -/
def execSfnd (c : CoreId) (w : L64) (s : State) : Out := (planSfnd c w).exec c w s
/-- `SCHK` (06 R163). -/
def execSchk (c : CoreId) (w : L64) (s : State) : Out := (planSchk c w).exec c w s
/-- `SXU8` (06 R164). -/
def execSxu8 (c : CoreId) (w : L64) (s : State) : Out := (planSxu8 c w).exec c w s
/-- `SXL1` (06 R166). -/
def execSxl1 (c : CoreId) (w : L64) (s : State) : Out := (planSxl1 c w).exec c w s
/-- `EDIT` (06 R171). -/
def execEdit (c : CoreId) (w : L64) (s : State) : Out := (planEdit c w).exec c w s
/-- `EDITM` (06 R174). -/
def execEditm (c : CoreId) (w : L64) (s : State) : Out := (planEditm c w).exec c w s
/-- `SCAN` (06 R176). -/
def execScan (c : CoreId) (w : L64) (s : State) : Out := (planScan c w).exec c w s

/-- The plan of an instruction that makes progress commits. -/
def planOf (op : StrOp) (c : CoreId) (w : L64) : StrPlan :=
  match op with
  | .smov => planSmov c w
  | .smova => planSmova c w
  | .sfil => planSfil c w
  | .smvt => planSmvt c w
  | .sxlt => planSxlt c w
  | .scmp => planScmp c w
  | .sfnd => planSfnd c w
  | .schk => planSchk c w
  | .sxu8 => planSxu8 c w
  | .sxl1 => planSxl1 c w
  | .edit => planEdit c w
  | .editm => planEditm c w

/-- The state after one unit's progress commit of an instruction at PCC, if it makes one (06 R180, 09 R243). -/
def StrPlan.commitOne (p : StrPlan) (c : CoreId) (w : L64) (s : State) : Option State :=
  let s := s.modCore c Core.landFp
  let k := s.core c
  let old := k.issued
  if (k.delay.map (·.annul)).getD false || !k.turn p.opc 8 w || k.entryFails p.opc || !guardOf w k
      || (old.isNone && (s.earlyFault c 8 (p.enc.bad w k.delay.isSome)).isSome) then none
  else
    let s := if old.isSome then s else s.fetchLines c k.pcc.cursor.toNat 8
    if (p.check c s).isSome || p.count k == 0 || k.owedFault.isSome then none
    else
      let s := s.readied c (p.issueUses c s)
      let i := old.getD (p.take s)
      let v := s.startString c p.opc w i
      let u := p.unit i old.isNone v
      if u.final || (s.markFault c (p.issueUses c s)).isSome then none
      else match u.run c v with
        | .ok t => some (t.noteAhead s c 8 false false)
        | .error _ => none

/-- `PROGRESS_COMMIT` (09 R243): one unit, RESUME and the progress registers in one step; the instruction stays at PCC. An
instruction that has no progress commit to make leaves everything as it is. -/
def execProgressCommit (c : CoreId) (op : StrOp) (w : L64) (s : State) : Out :=
  .next (if s.canIssue c then ((planOf op c w).commitOne c w s).getD s else s)

end Sys2Proof.Machine
end

