-- ==== Sys2Proof/Machine/Window.lean ====
section
/-! DEFINITION. SHED_WINDOW_ACCESS: an instruction whose accesses to the banks of its shed meet uses by port A (10 R256, R257, R262,
R264 to R268). The instruction is the ordinary one; what the command adds is which words port A uses as it runs. -/

namespace Sys2Proof.Machine

open Sys2Proof

/-! ## Instructions by opcode -/

/-- The binary and special-register instructions by opcode (03 Tables 3.9 to 3.14). -/
def runPlain (c : CoreId) (opc : BitVec 10) (w : L64) (s : State) : Out :=
  match opc.toNat with
  | 0x000 => execMov c (.l64 w) s
  | 0x001 => execAdd c (.l64 w) s
  | 0x002 => execSub c (.l64 w) s
  | 0x003 => execAdc c (.l64 w) s
  | 0x004 => execSbc c (.l64 w) s
  | 0x005 => execNeg c (.l64 w) s
  | 0x006 => execCmp c (.l64 w) s
  | 0x008 => execAnd c (.l64 w) s
  | 0x009 => execOr c (.l64 w) s
  | 0x00A => execXor c (.l64 w) s
  | 0x00B => execAndn c (.l64 w) s
  | 0x00C => execNot c (.l64 w) s
  | 0x00D => execClz c w s
  | 0x00E => execPopc c w s
  | 0x010 => execShl c (.l64 w) s
  | 0x011 => execShrl c (.l64 w) s
  | 0x012 => execShra c (.l64 w) s
  | 0x013 => execRol c (.l64 w) s
  | 0x014 => execRor c (.l64 w) s
  | 0x018 => execMul c (.l64 w) s
  | 0x019 => execMulw c (.l64 w) s
  | 0x01A => execMwait c (.l64 w) s
  | 0x01B => execMfmh c (.l64 w) s
  | 0x01C => execMfml c (.l64 w) s
  | 0x020 => execDiv c w s
  | 0x021 => execDivu c w s
  | 0x030 => execLdb c w s
  | 0x031 => execLdh c w s
  | 0x032 => execLdw c w s
  | 0x033 => execLdbs c w s
  | 0x034 => execLdhs c w s
  | 0x035 => execLdws c w s
  | 0x038 => execStb (.core c w) s
  | 0x039 => execSth (.core c w) s
  | 0x03A => execStw (.core c w) s
  | 0x040 => execMfs c w s
  | 0x041 => execMts c w s
  | _ => execUnassignedOpcode c (.l64 opc w) s

/-- The decimal and string instructions by opcode (03 Tables 3.9 to 3.14). -/
def runDecimal (c : CoreId) (opc : BitVec 10) (w : L64) (s : State) : Out :=
  match opc.toNat with
  | 0x100 => execDadd c w s
  | 0x101 => execDsub c w s
  | 0x102 => execDmul c w s
  | 0x103 => execDdiv c w s
  | 0x104 => execDmov c w s
  | 0x105 => execDmovu c w s
  | 0x106 => execDcmp c w s
  | 0x107 => execDsrd c w s
  | 0x108 => execDtob c w s
  | 0x109 => execDtobw c w s
  | 0x10A => execBtod c w s
  | 0x10B => execBtodw c w s
  | 0x10C => execDpak c w s
  | 0x10D => execDunp c w s
  | 0x10E => execDtst c w s
  | 0x180 => execSmov c w s
  | 0x181 => execSmova c w s
  | 0x182 => execSmvt c w s
  | 0x183 => execSxlt c w s
  | 0x184 => execScmp c w s
  | 0x185 => execSfnd c w s
  | 0x186 => execSchk c w s
  | 0x187 => execSfil c w s
  | 0x188 => execSxu8 c w s
  | 0x189 => execSxl1 c w s
  | 0x18A => execEdit c w s
  | 0x18B => execEditm c w s
  | 0x18C => execScan c w s
  | _ => execUnassignedOpcode c (.l64 opc w) s

/-- The floating-point instructions by opcode (03 Tables 3.9 to 3.14). -/
def runFloat (c : CoreId) (opc : BitVec 10) (w : L64) (s : State) : Out :=
  match opc.toNat with
  | 0x200 => execFadd c w s
  | 0x201 => execFsub c w s
  | 0x202 => execFmul c w s
  | 0x203 => execFdiv c w s
  | 0x204 => execFsqrt c w s
  | 0x205 => execFma c w s
  | 0x206 => execFcmp c w s
  | 0x207 => execFabs c w s
  | 0x208 => execFneg c w s
  | 0x209 => execFfromi c w s
  | 0x20A => execFtoi c w s
  | 0x20B => execFrnd c w s
  | 0x20D => execFclass c w s
  | 0x210 => execDfadd c w s
  | 0x211 => execDfsub c w s
  | 0x212 => execDfmul c w s
  | 0x213 => execDfdiv c w s
  | 0x214 => execDfsqrt c w s
  | 0x215 => execDfma c w s
  | 0x216 => execDfcmp c w s
  | 0x217 => execDfabs c w s
  | 0x218 => execDfneg c w s
  | 0x219 => execDffromi c w s
  | 0x21A => execDftoi c w s
  | 0x21B => execDfrnd c w s
  | 0x21C => execDfqua c w s
  | 0x21D => execDfclass c w s
  | 0x220 => execDqadd c w s
  | 0x221 => execDqsub c w s
  | 0x222 => execDqmul c w s
  | 0x223 => execDqdiv c w s
  | 0x224 => execDqsqrt c w s
  | 0x225 => execDqfma c w s
  | 0x226 => execDqcmp c w s
  | 0x227 => execDqabs c w s
  | 0x228 => execDqneg c w s
  | 0x229 => execDqfromi c w s
  | 0x22A => execDqtoi c w s
  | 0x22B => execDqrnd c w s
  | 0x22C => execDqqua c w s
  | 0x22D => execDqclass c w s
  | 0x230 => execFtodf c w s
  | 0x231 => execDftof c w s
  | 0x232 => execDftodq c w s
  | 0x233 => execDqtodf c w s
  | 0x234 => execFtodq c w s
  | 0x235 => execDqtof c w s
  | 0x236 => execPtodq c w s
  | 0x237 => execDqtop c w s
  | _ => execUnassignedOpcode c (.l64 opc w) s

/-- The capability, control and system instructions by opcode (03 Tables 3.9 to 3.14). -/
def runOther (c : CoreId) (opc : BitVec 10) (w : L64) (s : State) : Out :=
  match opc.toNat with
  | 0x280 => execCld c w s
  | 0x281 => execCst c w s
  | 0x282 => execCmov c w s
  | 0x283 => execCgeta c w s
  | 0x284 => execCgetb c w s
  | 0x285 => execCgett c w s
  | 0x286 => execCgetp c w s
  | 0x287 => execCseta c w s
  | 0x288 => execCinc c w s
  | 0x289 => execCsetb c w s
  | 0x28A => execCsetbx c w s
  | 0x28B => execCnarrow c w s
  | 0x28C => execCperm c w s
  | 0x28D => execCkey c w s
  | 0x28E => execCseal c w s
  | 0x28F => execCunseal c w s
  | 0x290 => execCmfs c w s
  | 0x291 => execCmts c w s
  | 0x292 => execCeq c w s
  | 0x298 => execTagget c w s
  | 0x299 => execTagset c w s
  | 0x29A => execTagcode c w s
  | 0x2C0 => execBr c w s
  | 0x2C1 => execBrl c w s
  | 0x2C2 => execJmp c w s
  | 0x2C3 => execJmpl c w s
  | 0x2C4 => execRetx c w s
  | 0x2C5 => execTrap c w s
  | 0x2C8 => execPcmp c w s
  | 0x2C9 => execPlog c w s
  | 0x2CA => execPflg c w s
  | 0x2D0 => execIflush c w s
  | 0x2D1 => execFence c w s
  | 0x2D8 => execTas c w s
  | 0x2D9 => execLrsv c w s
  | 0x2DA => execStcn c w s
  | 0x2DB => execBadd c w s
  | 0x2DC => execBswp c w s
  | 0x2DD => execBtas c w s
  | 0x2E0 => execJopen (.core c w) s
  | 0x2E1 => execSeal (.core c w) s
  | 0x2E2 => execSeala (.core c w) s
  | 0x2E3 => execJdrop (.core c w) s
  | 0x2E8 => execWaitd (.core c w) s
  | 0x2E9 => execPost (.core c w) s
  | 0x2F0 => execSignal c w s
  | 0x2F8 => execNop c w s
  | _ => execUnassignedOpcode c (.l64 opc w) s

/-- The L64 instruction with an opcode. -/
def runL64 (c : CoreId) (opc : BitVec 10) (w : L64) (s : State) : Out :=
  match opc.toNat / 0x80 with
  | 0 | 1 => runPlain c opc w s
  | 2 | 3 => runDecimal c opc w s
  | 4 => runFloat c opc w s
  | _ => runOther c opc w s

/-! ## The shed window -/

/-- Whether port A of another core's bank can use the word at an address of the shed window: a core reaches its own bank there through its
own port (10 R262, R264). -/
def State.hitCounts (s : State) (c : CoreId) (h : PortHit) : Bool :=
  s.region h.addr == .window && slotCore c ((h.addr - 0x01000000) / 0x80000) != c

/-- Words that port A never makes collide: those of the bank atomic itself (04 R117, 10 R264), resolved once results still due have landed
(04 R129). -/
def State.atomicWord (s : State) (c : CoreId) (acc : WindowAccess) : Option Nat :=
  match acc with
  | .l64 opc w =>
    if opc = 0x2D8 ∨ opc = 0x2DD then some ((s.resolve c 0 w.sa 1).addr / 8 * 8)
    else if opc = 0x2DB ∨ opc = 0x2DC then some ((opA s c w).addr / 8 * 8)
    else none
  | .short .. => none

/-- The instruction that makes the access. -/
def runWindow (acc : WindowAccess) (c : CoreId) (s : State) : Out :=
  match acc with
  | .l64 opc w => runL64 c opc w s
  | .short store base g disp => execShortLoadStore c store base g disp s

/-- Whether the access is that of a micro-coded instruction (09 R237). -/
def windowMicro : WindowAccess → Bool
  | .l64 opc _ => microCoded opc.toNat
  | .short .. => false

/-- SHED_WINDOW_ACCESS (10 R262): the instruction runs as ever, and the words of its window accesses that port A uses in the same SCLK
collide. The free values of its collided words are used up (log entry 3). -/
def execShedWindowAccess (c : CoreId) (acc : WindowAccess) (hits : List PortHit) (s : State) : Out :=
  let own := (s.modCore c Core.landFp).atomicWord c acc
  let hits := hits.filter fun h => s.hitCounts c h && own != some h.addr
  match runWindow acc c (s.modCore c fun k => { k with ports := hits, portMicro := windowMicro acc }) with
  | .next t =>
    .next { t.modCore c fun k => { k with ports := [], portMicro := false } with fresh := t.fresh + hits.length }
  | o => o

end Sys2Proof.Machine
end

