-- ==== Sys2Proof/Machine/Microcode.lean ====
section
/-! DEFINITION. The engine run word by word, and CONTROL_STORE_ERROR (09 R238–R247). What a routine computes is what the chapter of its
instruction gives: a progress word makes the unit of that chapter, a final word its result (log entry 134). -/

namespace Sys2Proof.Machine

open Sys2Proof

/-- The instruction that makes progress commits, by opcode (06 Table 6.8). -/
def strOpOf (opc : Nat) : Option StrOp :=
  match opc with
  | 0x180 => some .smov
  | 0x181 => some .smova
  | 0x182 => some .smvt
  | 0x183 => some .sxlt
  | 0x184 => some .scmp
  | 0x185 => some .sfnd
  | 0x186 => some .schk
  | 0x187 => some .sfil
  | 0x188 => some .sxu8
  | 0x189 => some .sxl1
  | 0x18A => some .edit
  | 0x18B => some .editm
  | _ => none

/-- A progress word commits the next unit of its instruction, with RESUME as the word composes it (09 R243); the engine goes on from what
it has staged since. -/
def State.microProgress (s : State) (c : CoreId) (h : Held) (e : Engine) : State :=
  match strOpOf h.opc with
  | none => s
  | some op =>
    (((planOf op c h.w).commitOne c h.w s).getD s).modCore c fun k => { k with engine := some { e with staged := [] } }

/-- A final word commits the instruction: its results, tags, flags and cursors, and RESUME (09 R244). -/
def State.microFinal (s : State) (c : CoreId) (h : Held) : State :=
  match runL64 c (BitVec.ofNat 10 h.opc) h.w s with
  | .next t => t
  | _ => s

/-- The engine stands at a word: one that fails is not executed, and stops the core (09 R247). -/
def State.microRead (s : State) (c : CoreId) : State :=
  match (s.core c).engine with
  | some e => if (s.core c).engineFails e then s.csStop c e else s
  | none => s

/-- One word of a routine: nothing where it raises, or waits for what has not come (09 R242, R245); else what it stages, its commit, and the
next address. -/
def State.microStep (s : State) (c : CoreId) (x : MicroStep) : State :=
  match (s.core c).engine, (s.core c).held with
  | some e, some h =>
    let w := (s.core c).engineWord e
    if raises w || (waitCode w != 0 && !x.ready) then s
    else
      let e := e.stage w x
      let s := s.modCore c fun k => { k with engine := some e }
      if commitCode w = 2 then s.microFinal c h
      else
        let s := if commitCode w = 1 then s.microProgress c h e else s
        s.modCore c fun k => { k with engine := k.engine.map fun e => e.sequence w x }
  | _, _ => s

/-- The words of a routine, each read before it is executed (09 R238, R247). -/
def State.microRun (s : State) (c : CoreId) : List MicroStep → State
  | [] => s.microRead c
  | x :: t => ((s.microRead c).microStep c x).microRun c t

/-- The routine of the micro-coded instruction stored at PCC begins, once its fetch, encoding and access checks have passed (09 R238). Where
it does not begin, nothing has happened: an exception that its checks would raise is for the instruction to take. -/
def State.microBegin (s : State) (c : CoreId) : State :=
  match s.storedL64 c with
  | none => s
  | some (opc, w) =>
    if !microCoded opc.toNat then s
    else
      match runL64 c opc w (s.modCore c fun k => { k with beginOnly := true }) with
      | .next t =>
        match (t.core c).engine, (t.core c).run with
        | some _, _ => t
        | none, .csError _ _ _ _ => t
        | none, _ => s
      | _ => s

/-- CONTROL_STORE_ERROR (09 R238, R239, R247): bits of the control store flip, and the engine of the micro-coded instruction in hand runs words
from where it stands. At a word that fails it abandons the instruction and issue stops; else it stands where it has come to, or the
instruction is over. -/
def execControlStoreError (c : CoreId) (flips : List (BitVec 13 × BitVec 136)) (trail : List MicroStep) (s : State) : Out :=
  let s := s.modCore c fun k => k.flipCs flips
  .next (if !s.canIssue c then s
    else if (s.core c).engine.isSome then s.microRun c trail
    else (s.microBegin c).microRun c trail)

end Sys2Proof.Machine
end

