-- ==== Sys2Proof/Machine/Steering.lean ====
section
/-! DEFINITION. Self-steering: monitors, clocks and voltages, droop, migration and ageing (17 R420; 18 R441–R449). -/

namespace Sys2Proof.Machine

open Sys2Proof

/-! ## Monitors -/

/-- Block of a thermal sensor (18 Table 18.8): sheds 0 to 11, Yard A 12, Yard B 13, Gate 14, steward 15, Halyard 16, package edge
17. -/
def sensorBlock (i : Nat) : Nat :=
  if i < 36 then i / 3 else if i < 40 then 12 + (i - 36) / 2 else if i < 44 then 14 else if i < 46 then 15
  else if i < 48 then 16 else 17

/-- Sensors of a block. -/
def blockSensors (b : Nat) : List Nat := (List.range 52).filter fun i => sensorBlock i == b

/-- Reading of a thermal sensor. -/
def Readings_temp (r : Readings) (i : Nat) : Int := r.thermal.getD i 0

/-- Whether a sensor differs from every other sensor of its block by more than 15 °C (17 R420). -/
def sensorDiffers (r : Readings) (i : Nat) : Bool :=
  ((blockSensors (sensorBlock i)).filter (· != i)).all fun j => decide (15 < (Readings_temp r i - Readings_temp r j).natAbs)

/-- Whether a thermal sensor is set aside: out of range, or it differs for the second period in a row (17 R420). -/
def State.thermalOut (s : State) (r : Readings) (i : Nat) : Bool :=
  let t := Readings_temp r i
  decide (t < -20 ∨ 150 < t) || (sensorDiffers r i && s.steward.suspects.contains i)

/-- Whether a voltage monitor differs from its regulator's reading by more than 50 mV (17 R420). -/
def voltageOut (r : Readings) (i : Nat) : Bool := decide (50 < ((r.volt.getD i 0 : Int) - r.pmbus.getD i 0).natAbs)

/-- Whether a process monitor differs from the other of its shed by more than 8 % (17 R420). -/
def processOut (r : Readings) (i : Nat) : Bool :=
  let j := if i % 2 = 0 then i + 1 else i - 1
  decide (800 < ((r.process.getD i 0 : Int) - r.process.getD j 0).natAbs)

/-- The monitors set aside in a period: thermal i as i, voltage i as 100 + i, process i as 200 + i. -/
def State.monitorsOut (s : State) (r : Readings) : List Nat :=
  (List.range 52).filter (s.thermalOut r) ++ ((List.range 30).filter (voltageOut r)).map (100 + ·)
    ++ ((List.range 24).filter (processOut r)).map (200 + ·)

/-- Sets monitors aside with their MONITOR records (17 R420, Table 17.6). -/
def State.setAsideMonitors (s : State) (r : Readings) : State :=
  let out := s.monitorsOut r
  let s := (out.filter fun n => !s.steward.setAside.contains n).foldl (fun s n => s.log 0x39 1 (n % 100) (n / 100) 0 0) s
  { s with steward := { s.steward with setAside := out, suspects := (List.range 52).filter (sensorDiffers r) } }

/-- Greatest of some temperatures. -/
def hottestOf (l : List Int) : Int := l.foldl max (-1000)

/-- Temperature of a block for the decision rules (17 R420): a sensor set aside stands for the hottest of its block plus 5 °C; a
block without a working sensor for 85 °C. -/
def State.blockTemp (s : State) (r : Readings) (b : Nat) : Int :=
  let ok := (blockSensors b).filter fun i => !s.steward.setAside.contains i
  if ok.isEmpty then 85
  else hottestOf (ok.map (Readings_temp r)) + (if ok.length = (blockSensors b).length then 0 else 5)

/-- Larger frequency loss of a shed's two process monitors, in 0.01 % (18 R441): one set aside is replaced by the other, which is
set aside with it, so the two readings stand. -/
def shedLoss (r : Readings) (h : Nat) : Nat := max (10000 - r.process.getD (2 * h) 10000) (10000 - r.process.getD (2 * h + 1) 10000)

/-! ## Clocks and voltages -/

/-- V(s) in mV, rounded up to 5 mV (18 R441). -/
def shedVoltage (mhz loss : Nat) : Nat := ceilDiv (24000 + 5 * (mhz - 400) + 4 * loss) 200 * 5

/-- A shed at a clock and its voltage (18 R441, R442). -/
def Shed.atClock (x : Shed) (mhz : Nat) : Shed := { x with mhz := mhz, mv := shedVoltage mhz x.loss }

/-- CLOCK_CHANGE (18 R441, R442): to a step of 25 MHz within the shed's limits. -/
def execClockChange (h : ShedId) (mhz : Nat) (s : State) : Out :=
  .next (if s.sheds[h].retained || decide (mhz < 400 ∨ mhz % 25 ≠ 0 ∨ s.shedFmax h < mhz) then s
    else s.modShed h fun x => x.atClock mhz)

/-- What R445 decides for a shed: the new clock before the final limit, and the reason of a lowering, 0 for none. `t` is the
shed's temperature, `ty` that of yards and Gate, `tc` the package edge's. -/
def steer (tcase pcap fmax f : Nat) (t ty tc : Int) (p : Nat) (ilimit : Bool) : Nat × Nat :=
  if 110 ≤ t ∨ 110 ≤ ty then (400, 1)
  else if (tcase : Int) + 5 ≤ tc then (400, 2)
  else if 100 ≤ t then (max 400 (f - 100), 1)
  else if (tcase : Int) ≤ tc then (max 400 (f - 100), 2)
  else if 10 * pcap < p then (max 400 (f - 25), 3)
  else if ilimit then (max 400 (f - 25), 4)
  else if t ≤ 95 ∧ tc ≤ (tcase : Int) - 2 ∧ p + 50 ≤ 10 * pcap then (min fmax (f + 25), 0)
  else (f, 0)

/-- Domain of a shed's logic (01 Table 1.1). -/
def shedDomain (h : ShedId) : Fin 30 := Fin.ofNat 30 (h.val + 3)

/-- A throttled spell goes on or ends, with its records (18 R446, Table 18.10). -/
def State.noteThrottle (s : State) (h : ShedId) (reason : Nat) (t : Int) : State :=
  let x := s.sheds[h]
  if s.throttled h then
    let s := if reason ≠ 0 ∧ x.limited = false then s.log 0x40 0 h.val reason x.mhz (word t) else s
    s.modShed h fun k => { k with throttled := k.throttled + 1, limited := k.limited || reason != 0 }
  else
    let s := if x.limited then s.log 0x41 0 h.val (x.throttled / 10) x.mhz 0 else s
    s.modShed h fun k => { k with throttled := 0, limited := false, migrations := 0 }

/-- One shed's step of the control loop (18 R445). -/
def State.steerShed (s : State) (r : Readings) (h : ShedId) : State :=
  if s.sheds[h].retained then s
  else
    let s := s.modShed h fun x => { x with loss := shedLoss r h.val }
    let fmax := s.shedFmax h
    let t := s.blockTemp r h.val
    let ty := max (max (s.blockTemp r 12) (s.blockTemp r 13)) (s.blockTemp r 14)
    let d := steer s.steward.policy.tcase s.steward.policy.pcap fmax s.sheds[h].mhz t ty (s.blockTemp r 17) r.power
      (r.ilimit.getLsbD h.val || s.belowRating (shedDomain h))
    (s.modShed h fun x => x.atClock (min d.1 fmax)).noteThrottle h d.2 t

/-- DROOP record of a shed's stretches in a past second (18 R443, Table 18.10). -/
def State.logDroop (s : State) (h : ShedId) : State :=
  match s.sheds[h].droops with
  | some (sec, n, fall) =>
    if sec < s.timer.toNat / second then
      (s.log 0x44 0 (shedDomain h).val n fall 0).modShed h fun x => { x with droops := none }
    else s
  | none => s

/-- Whether the module serves: the control loop's condition (18 R445). -/
def State.steering (s : State) : Bool := s.serving && s.smbusUp

/-- CONTROL_LOOP_TICK (17 R420, 18 R445). -/
def execControlLoopTick (r : Readings) (s : State) : Out :=
  if !s.steering then .next s
  else
    let s := s.setAsideMonitors r
    let hot := hottestOf ((List.range 18).map (s.blockTemp r))
    let s := { s with steward := { s.steward with power := r.power, hottest := hot } }
    .next ((List.finRange 12).foldl (fun s h => (s.steerShed r h).logDroop h) s)

/-- DROOP_STRETCH (18 R443): a fall of 40 mV or more doubles the SCLK period. -/
def execDroopStretch (h : ShedId) (fall : Nat) (s : State) : Out :=
  if fall < 40 ∨ s.sheds[h].retained then .next s
  else
    let s := s.logDroop h
    let now := s.timer.toNat / second
    .next (s.modShed h fun x =>
      let n := if x.stretched then 0 else 1
      { x with
        stretched := true
        droops := match x.droops with
          | some (t, k, d) => some (t, k + n, max d fall)
          | none => some (now, 1, fall) })

/-- DROOP_STRETCH_END (18 R443). -/
def execDroopStretchEnd (h : ShedId) (s : State) : Out := .next (s.modShed h fun x => { x with stretched := false })

/-! ## Migration and ageing -/

/-- Sessions that a core owns. -/
def State.load (s : State) (c : CoreId) : Nat := (s.sessionsOf c.val).length

/-- Whether a core of an unthrottled shed can take sessions. -/
def State.mayTakeSessions (s : State) (c : CoreId) : Bool :=
  (s.entry (ownerOf c)).en && (s.core c).run != .paddock && !s.throttled (shedOf c)

/-- Whether R446 moves sessions from one core to another now: no move yet in this period of ten milliseconds of throttling, the source
owning the most of its shed, the target the fewest of those unthrottled elsewhere, and no command holding a lock on them. -/
def State.mayMigrate (s : State) (h : ShedId) (src dst : CoreId) : Bool :=
  s.throttled h && decide (s.sheds[h].migrations < s.sheds[h].throttled / 100)
    && shedOf src == h && (coresOf h).all (fun c => decide (s.load c ≤ s.load src))
    && shedOf dst != h && s.mayTakeSessions dst
    && (List.finRange 96).all (fun c => shedOf c == h || !s.mayTakeSessions c || decide (s.load dst ≤ s.load c))
    && !s.lockHeld ((s.sessionsOf src.val).map (lockOne .session))

/-- A migration that has begun ends once no request of its sessions runs: they all move (18 R446). -/
def State.endMove (s : State) (src dst : CoreId) (ns : List Nat) : State :=
  if ns.all fun n => (s.requestsOf n).all Request.queued_ then
    let s := s.wake (shedOf dst)
    let s := ns.foldl (fun s n => s.modSession n fun x => { x with owner := ownerOf dst, held := false }) s
    { s with steward := { s.steward with moves := s.steward.moves.filter (·.1 != src) } }.log 0x42 0 src.val ns.length dst.val 0
  else s

/-- THROTTLE_MIGRATION (18 R446): as `SESSION_MOVE` MODE 0, the sessions' queued requests wait until those that run are complete; then they all
move. Commands that need a lock on one of them wait until then (14 R367). -/
def execThrottleMigration (h : ShedId) (src dst : CoreId) (s : State) : Out :=
  if !s.steering then .next s
  else
    match s.steward.moves.find? (·.1 == src) with
    | some m => .next (s.endMove src m.2.1 m.2.2)
    | none =>
      if !s.mayMigrate h src dst then .next s
      else
        let ns := s.sessionsOf src.val
        let s := s.modShed h fun x => { x with migrations := x.throttled / 100 }
        let s := ns.foldl (fun s n => s.modSession n fun x => { x with held := true }) s
        .next ({ s with steward := { s.steward with moves := s.steward.moves ++ [(src, dst, ns)] } }.endMove src dst ns)

/-- Cores that a process monitor covers (18 Table 18.8). -/
def monitorCores (i : Nat) : List CoreId := (List.range 4).map fun n => Fin.ofNat 96 (i / 2 * 8 + i % 2 * 4 + n)

/-- Ledger cores in service: not in paddock. -/
def State.inService (s : State) (cs : List CoreId) : Nat := (cs.filter fun c => (s.core c).run != .paddock).length

/-- Reading of a process monitor: of one set aside, that of the other of its shed (17 R420). -/
def State.processLoss (s : State) (loss : List Nat) (i : Nat) : Nat :=
  if i < 24 ∧ s.steward.setAside.contains (200 + i) then loss.getD (if i % 2 = 0 then i + 1 else i - 1) 0 else loss.getD i 0

/-- Whether a group was retired for its age within the last hour of TIMER (18 R447). -/
def State.agedLately (s : State) : Bool :=
  s.steward.agedAt.any fun t => decide (t.toNat ≤ s.timer.toNat ∧ s.timer.toNat < t.toNat + hour)

/-- One monitor of the hourly check (18 R447, Table 18.10). -/
def State.ageOne (choice : Owner) (s : State) (i loss : Nat) : State :=
  if loss ≤ 400 then s
  else if 24 ≤ i then s.log 0x43 1 i loss 0 0
  else
    let cs := monitorCores i
    let n := s.inService cs
    let first := (i / 2 * 8 + i % 2 * 4) * 2 ^ 8
    if n = 0 then s
    else if s.inService (List.finRange 96) < n + 8 then s.log 0x43 1 i loss first 0
    else if s.agedLately then s
    else
      let s := { s with steward := { s.steward with agedAt := some s.timer } }
      let s := (cs.filter fun c => (s.core c).run != .paddock).foldl (fun s c => s.retireCore c choice) s
      s.log 0x43 2 i loss (first + 1) 0

/-- Locks on the cores, and their sessions, that a check may retire (14 R367). -/
def State.agingLocks (s : State) (loss : List Nat) : List Lock :=
  ((List.range 24).filter fun i => decide (400 < s.processLoss loss i)).flatMap fun i => (monitorCores i).flatMap fun c =>
    lockOne .core c.val :: (s.sessionsOf c.val).map (lockOne .session)

/-- AGING_CHECK (18 R447): the losses of the 26 process monitors in 0.01 %. It waits while a command, or a migration, holds a lock on a core
that it may retire (14 R367). -/
def execAgingCheck (loss : List Nat) (choice : Owner) (s : State) : Out :=
  if !s.smbusUp || s.lockHeld (s.agingLocks loss) || locksMeet s.ownLocks (s.agingLocks loss) || s.steward.standby || decide (s.steward.stage < 5) then .next s
  else .next ((List.range 26).foldl (fun t i => State.ageOne choice t i (s.processLoss loss i)) s)

end Sys2Proof.Machine
end

