-- ==== Sys2Proof/Machine/Start.lean ====
section
/-! DEFINITION. Start, reset and power: supplies, the start stages, the warm reset, recovery, the TAP, the thermal trip and TIMER's
tick (09 R252–R254; 11 R283, R306; 18 R428–R440; 19 R452–R460). -/

namespace Sys2Proof.Machine

open Sys2Proof

/-! ## TIMER -/

/-- TIMER counts nanoseconds while REFCLK runs (02 R26, 19 R456; log entry 7). -/
def State.tick (s : State) : State := if s.smbusUp then { s with timer := s.timer + 1 } else s

/-! ## The states that resets leave -/

/-- CODE of a STAGE record's kind (18 Table 18.10). -/
def kindNum : StartKind → Nat
  | .cold => 0
  | .warm => 1
  | .standbyExit => 2

/-- A stage entered, with its STAGE record (18 R428, Table 18.10). -/
def State.enterStage (s : State) (n : Nat) : State :=
  { s with steward := { s.steward with stage := n } }.log 0x47 0 0 n (kindNum s.steward.kind) s.timer

/-- Every class of state outside the steward as a cold start or a standby exit finds it (18 Table 18.4): nothing initialised yet,
Halyard in NOT-READY (15 R395), READY and SAFE deasserted. THERM_TRIP_N stays as it is: only a standby exit releases it (18 R431, R440). -/
def State.domainsOff (s : State) : State :=
  { State.reset with
    cores := Vector.replicate 96 { Core.reset with cs := none }
    yardA := { YardState.reset with initialised := false }
    yardB := { YardState.reset with initialised := false }
    ports := Vector.replicate 2 { Port.reset with notReady := true }
    steward := s.steward
    pins := { s.pins with ready := false, safe := false }
    timer := s.timer
    out := s.out
    fresh := s.fresh
    pending := s.pending }

/-- The steward at ST0 of a cold start: flash, fuses, the TAP and a recovery image's rejection keep what they hold (18 Table 18.4,
19 Table 19.4). -/
def Steward.cold (w : Steward) : Steward :=
  { Steward.reset with
    stage := 0
    st1Done := false
    policyBlock := w.policyBlock
    fuseLevel := w.fuseLevel
    recoveryState := if w.recoveryState = 3 then 3 else 0
    jtag := w.jtag }

/-- The steward in standby: its log, its pairs and what it knows of faults stay (18 Table 18.4). -/
def Steward.standingBy (w : Steward) : Steward :=
  { w.cold with
    kind := .standbyExit, standby := true, log := w.log, nextSeq := w.nextSeq, fatal := w.fatal, dataLoss := w.dataLoss
    pairB := w.pairB, standbyOut := w.standbyOut, mismatchA := w.mismatchA, mismatchB := w.mismatchB, benched := w.benched
    testing := w.testing, failedHops := w.failedHops, lostPhases := w.lostPhases, setAside := w.setAside
    suspects := w.suspects }

/-- A module without a running steward (19 R456, R458). -/
def State.dark (s : State) : State := { s.domainsOff with steward := s.steward.cold }

/-- A cold start enters ST0 (18 R428). -/
def State.coldStart (s : State) : State := s.dark.enterStage 0

/-- Standby: no rollback, seal or drain (18 R439). -/
def State.standBy (s : State) : State := { s.domainsOff with steward := s.steward.standingBy }

/-! ## Supplies and clocks -/

/-- VAUX_APPLIED (18 R428, 19 R452, R456): the straps are sampled, and with REFCLK running ST0 begins. -/
def execVauxApplied (bootSel : BitVec 2) (smbAddr : BitVec 3) (s : State) : Out :=
  if s.pins.vaux then .next s
  else
    let s := { s with
      pins := { s.pins with vaux := true, trstHigh := false, bootSel := bootSel, smbAddr := smbAddr }
      steward := { s.steward with recoveryState := 0, jtag := .idcode } }
    .next (if s.pins.refclk then s.coldStart else s)

/-- REFCLK_START (19 R456). -/
def execRefclkStart (s : State) : Out :=
  if s.pins.refclk then .next s
  else
    let s := { s with pins := { s.pins with refclk := true } }
    .next (if s.pins.vaux then s.coldStart else s)

/-- REFCLK_STOP (19 R456): the steward is held in reset, and the module with it. -/
def execRefclkStop (s : State) : Out :=
  .next (if s.pins.refclk then { s with pins := { s.pins with refclk := false } }.dark else s)

/-- VAUX_LOSS (19 R458). -/
def execVauxLoss (s : State) : Out :=
  .next (if s.pins.vaux then { s with pins := { s.pins with vaux := false, thermTrip := false } }.dark else s)

/-- Whether the module is past ST0 and out of standby. -/
def State.powered (s : State) : Bool := s.smbusUp && !s.steward.standby && decide (1 ≤ s.steward.stage)

/-- VIN_LOSS (18 R433). -/
def execVinLoss (s : State) : Out :=
  let t := { s with pins := { s.pins with vin := false } }
  .next (if s.powered then t.standBy else t)

/-- PWR_EN_LOW (18 R439, R440): a module in standby stays there. -/
def execPwrEnLow (s : State) : Out :=
  let t := { s with pins := { s.pins with pwrEn := false }, steward := { s.steward with exitDue := false } }
  .next (if s.powered then t.standBy else t)

/-- ST1 entered: a start other than a warm one sets TIMER to 0 (18 Table 18.4), and a recovery image is awaited afresh
(19 R453). -/
def State.enterSt1 (s : State) (k : StartKind) : State :=
  let w := { s.steward with
    kind := k, standby := false, exitDue := false, st1Done := false, bootFailed := false, recovery := []
    recoveryState := if s.steward.recoveryState = 3 then 3 else 0 }
  { s with steward := w, timer := if k = StartKind.warm then s.timer else 0 }.enterStage 1

/-- A standby exit begins: THERM_TRIP_N is released, and the start goes on from ST1 (18 Table 18.3, R440). -/
def State.leaveStandby (s : State) : State := { s with pins := { s.pins with thermTrip := false } }.enterSt1 .standbyExit

/-- PWR_EN_HIGH (19 R457). After standby ST1 is entered once VIN is within range (18 Tables 18.1, 18.3). -/
def execPwrEnHigh (s : State) : Out :=
  if s.pins.pwrEn then .next s
  else
    let t := { s with pins := { s.pins with pwrEn := true } }
    .next (if !s.steward.standby || !s.smbusUp then t
      else if s.pins.vin then t.leaveStandby
      else { t with steward := { t.steward with exitDue := true } })

/-- THERMAL_TRIP (18 R440): THERM_TRIP_N whatever the module does, then standby and the THERMAL_TRIP record where the steward runs. -/
def execThermalTrip (sensor : Fin 52) (reading : Int) (s : State) : Out :=
  if reading < 125 ∨ sensor.val ∈ s.steward.setAside ∨ s.pins.vaux = false then .next s
  else
    let t := if s.smbusUp then (s.log 0x45 4 sensor.val reading.toNat 0 0).standBy else s
    .next { t with pins := { t.pins with thermTrip := true } }

/-! ## The start stages -/

/-- Whether ST1 may be entered from ST0 or from standby: VAUX, PWR_EN and REFCLK there (18 Table 18.1). VIN has no row of its own at its rise:
that ST1 is entered shows it within range (19 R457; DEDUCED, log entry 163). -/
def State.mayEnterSt1 (s : State) : Bool :=
  s.smbusUp && s.pins.pwrEn && ((s.steward.stage == 0 && !s.steward.standby) || s.steward.exitDue)

/-- ST1 entered where it may be. -/
def State.enterAnySt1 (s : State) : State :=
  if s.mayEnterSt1 then
    let s := { s with pins := { s.pins with vin := true } }
    if s.steward.standby then s.leaveStandby else s.enterSt1 .cold
  else s

/-- Largest recovery image. -/
def recoveryMax : Nat := 3 * 2 ^ 20

/-- Length that the header of a recovery image gives, where it begins as it must and the length is in range (19 R453). -/
def recoveryLen (header : List Byte) : Option Nat :=
  let n := fieldLe header 4 4
  if slice header 0 4 = [0x42, 0x4F, 0x4F, 0x54] ∧ inRange 4096 recoveryMax n then some n else none

/-- Bytes that begin at an offset, put over what is held. -/
def putImage (held : List (Nat × Byte)) (off : Nat) (bytes : List Byte) : List (Nat × Byte) :=
  bytes.foldlIdx (fun i m b => Sparse.set 0 m (off + i) b) held

/-- The external flash read at ST1: its header, then the length that this gives (19 R455). -/
def State.readExternal (s : State) (flash : List Byte) : State :=
  let s := s.emit (.xspiRead 0x6B 0 8)
  match recoveryLen flash with
  | some n => { s with steward := { s.steward with recovery := putImage [] 0 (flash.take n) } }.emit (.xspiRead 0x6B 0 n)
  | none => s

/-- Result of the verification at ST1 by BOOT_SEL (19 Table 19.3, R453, Table 19.4): none while a recovery image is still awaited. -/
def State.imageResult (s : State) (b : BootReport) : Option Bool :=
  if s.pins.bootSel = 3 then some false
  else if s.pins.bootSel = 1 then
    (if s.steward.recoveryState = 1 then some s.steward.recoveryOk
      else if s.steward.recoveryState = 3 then some false
      else none)
  else if s.pins.bootSel = 2 then some (b.imageOk && (recoveryLen b.external).any fun n => decide (n ≤ b.external.length))
  else some b.imageOk

/-- The image taken at ST1: the one on the external flash is read, and the state of one received over SMBus follows its verification (19
Table 19.4). -/
def State.takeImage (s : State) (b : BootReport) : State :=
  if s.pins.bootSel = 2 then s.readExternal b.external
  else if s.pins.bootSel = 1 ∧ s.steward.recoveryState = 1 then
    { s with steward := { s.steward with recoveryState := if s.steward.recoveryOk then 2 else 3 } }
  else s

/-- The policy at ST1: the block's or the defaults, but for a warm start, which keeps the one in force; a block that fails its check is
logged at any (18 R448, Table 18.4). -/
def State.loadPolicy (s : State) (ok : Bool) : State :=
  let use (p : Policy) : State := if s.steward.kind = .warm then s else { s with steward := { s.steward with policy := p } }
  match s.steward.policyBlock with
  | none => use Policy.default
  | some p => if ok then use p else (use Policy.default).log 0x46 0 0 0 0 0

/-- ST1 (18 R428, R430): the verification of the boot image, then policy and patches. -/
def execSt1 (b : BootReport) (s : State) : Out :=
  if !(s.mayEnterSt1 || (s.powered && s.steward.stage == 1 && !s.steward.st1Done && !s.steward.bootFailed)) then .next s
  else
    let s := s.enterAnySt1
    let t := s.takeImage b
    match s.imageResult b with
    | none => .next t
    | some false => .next { t with steward := { t.steward with bootFailed := true } }
    | some true =>
      let s := (t.loadPolicy b.policyOk).checkPatches b.containers
      .next { s with steward := { s.steward with st1Done := true, imageLevel := b.level } }

/-- Whether the start stands at a stage. -/
def State.atStage (s : State) (n : Nat) : Bool := s.powered && s.steward.stage == n && !s.steward.warmWait

/-- ST2 (18 R428, R431): SAFE is asserted. -/
def execSt2 (s : State) : Out :=
  .next (if s.atStage 1 && s.steward.st1Done && !s.pins.perst then
      { s with pins := { s.pins with safe := true } }.enterStage 2
    else s)

/-- A channel that fails at both rates at a cold start (11 R283, R298): the spare takes its position. -/
def YardState.trainFail (k : YardState) (ch : Fin 11) : YardState :=
  match k.posOf ch with
  | some p =>
    if k.mode = 0 ∧ k.spare = 10 then
      { k with deadChannels := k.deadChannels ++ [ch], posMap := k.posMap.set p 10, spare := 0xF }
    else k.loseChannel ch
  | none => k.loseChannel ch

/-- Channels of a list in the order in which training settles them: the spare first, then by number. -/
def trainOrder (fails : List (Fin 11)) : List (Fin 11) := ((10 : Fin 11) :: (List.finRange 11).dropLast).filter fun c => fails.contains c

/-- Training of a yard at a start (11 R283, R284). -/
def YardState.train (k : YardState) (warm slow : Bool) (fails : List (Fin 11)) : YardState :=
  let k := { k with rate := slow }
  (trainOrder fails).foldl (if warm then YardState.loseChannel else YardState.trainFail) k

/-- A ring emptied at a change of size; RSEQ and the line count go on (18 R435). -/
def Ring.emptied (r : Ring) : Ring := { r with recs := [], tail := r.lines, reserved := 0, hold := false }

/-- A stored ring size that differs from the one in use takes effect at a warm start (18 R435). -/
def State.resizeRings (s : State) : State :=
  let new := s.steward.policy.ringlog
  if new = s.steward.ringlog then s
  else
    let was := s.journalBase
    let s := { s with
      steward := { s.steward with ringlog := new }
      yardA := { s.yardA with ring := s.yardA.ring.emptied }
      yardB := { s.yardB with ring := s.yardB.ring.emptied } }
    let lo := min was s.journalBase
    let s := { s with mem := s.mem.clearRange lo (max was s.journalBase - lo) }
    ((s.log 0x46 0 0 3 4 0).fence .a 1).fence .b 1

/-- The cold march of the banks (10 R272, R273): the spares that fail, and failed rows mapped in ascending order of core and row. -/
def State.coldMarch (s : State) (rows : List (CoreId × BitVec 14)) (spares : List (CoreId × Fin 32)) : State :=
  (List.finRange 96).foldl (fun s c =>
    s.march c ((spares.filter (·.1 == c)).map (·.2))
      ((List.range 16384).filter fun r => rows.any fun x => x.1 == c && x.2.toNat == r)) s

/-- ST3 (11 R283, 10 R273, 18 R435). -/
def execSt3 (t : TrainReport) (s : State) : Out :=
  if !s.atStage 2 then .next s
  else
    let warm : Bool := s.steward.kind == .warm
    let s := s.enterStage 3
    let s := s.yardMode .a fun k => k.train warm t.slowA t.failA
    let s := s.yardMode .b fun k => k.train warm t.slowB t.failB
    if warm then .next s.resizeRings
    else .next ({ s with steward := { s.steward with ringlog := s.steward.policy.ringlog } }.coldMarch t.badRows t.badSpares)

/-- Bits of one core's store that do not take, of those of every core. -/
def bitsOf (c : CoreId) (l : List (CoreId × BitVec 13 × BitVec 136)) : List (BitVec 13 × BitVec 136) :=
  (l.filter (·.1 == c)).map (·.2)

/-- A core's control store loaded and verified: one that fails comparison twice keeps its core in paddock (09 R254). -/
def State.verifyStore (s : State) (c : CoreId) (first second : List (BitVec 13 × BitVec 136)) : State :=
  if (s.core c).run = .paddock then s
  else
    let s := s.loadTwice c first second
    match s.badWord c (second.map (·.1)) with
    | some a => (s.toPaddock c).csLog c s.timer a ((s.core c).wordGroups a) false 3
    | none => s

/-- ST4 (09 R254): every control store is loaded from the merged image and verified; `first` and `second` are the bits that do not take. -/
def execSt4 (first second : List (CoreId × BitVec 13 × BitVec 136)) (s : State) : Out :=
  .next (if s.atStage 3 then
      (List.finRange 96).foldl (fun s c => s.verifyStore c (bitsOf c first) (bitsOf c second)) (s.enterStage 4)
    else s)

/-- Every core with DT.EN = 1 enters vector 0 after a warm start (18 R434). -/
def State.reenterCores (s : State) : State :=
  (List.finRange 96).foldl (fun s c =>
    if (s.entry (ownerOf c)).en && (s.core c).run != .paddock then s.enterVector0 c .restartCommand else s) s

/-- ST5 (18 R428, R434): Halyard leaves NOT-READY, recorded fences apply (15 R395, 14 Table 14.6). -/
def execSt5 (s : State) : Out :=
  if !s.atStage 4 then .next s
  else
    let hold := s.steward.holdDue
    let due := s.steward.fencesDue.toNat
    let s := s.enterStage 5
    let s := { s with
      ports := s.ports.map fun (p : Port) => { p with notReady := hold }
      steward := { s.steward with fencesDue := 0, holdDue := false } }
    let s : State := (namedYards due).foldl (fun s y => s.fence y 1) s
    .next (if s.steward.kind = StartKind.warm then s.reenterCores else s)

/-- ST6 (18 R428, R431): once both yards are initialised (11 R306). -/
def execSt6 (s : State) : Out :=
  .next (if s.atStage 5 && s.yardA.initialised && s.yardB.initialised then
      { s with pins := { s.pins with ready := !s.steward.fatal } }.enterStage 6
    else s)

/-! ## Warm reset (18 R432–R435) -/

/-- Steps 1 and 2 of the entry sequence (18 R432). An accepted cold RESTART still follows (14 R373). -/
def State.warmBegin (s : State) : State :=
  let s := { s.abortOthers none with
    pins := { s.pins with ready := false, safe := false }
    steward := { (s.abortOthers none).steward with
      warmWait := true, pendingReset := if s.steward.pendingReset = some PendingReset.cold then some PendingReset.cold else none } }
  let s := s.drainCores
  let s := (List.range s.refChg.length).foldl (fun s _ => s.landRefChg) s
  let s := (List.finRange 96).foldl (fun s c => s.paddockDump c) s.rollbackAll
  { s with cores := s.cores.map fun (k : Core) => if k.run = .paddock then k else { k with run := .stopped } }

/-- A warm trigger (18 R433): before both yards are initialised it starts a cold start; during an entry sequence it is absorbed, and so where a
warm start has failed at ST1, whose next attempt is a cold start or standby exit (R430). -/
def State.warmTrigger (s : State) : State :=
  if !s.powered || s.steward.warmWait || (s.steward.bootFailed && s.steward.kind == StartKind.warm) then s
  else if s.yardA.initialised && s.yardB.initialised then s.warmBegin
  else s.coldStart

/-- PERST_N_ASSERT (18 Table 18.3). -/
def execPerstNAssert (s : State) : Out :=
  .next (if s.pins.perst then s else { s with pins := { s.pins with perst := true } }.warmTrigger)

/-- PERST_N_DEASSERT (18 R429). -/
def execPerstNDeassert (s : State) : Out := .next { s with pins := { s.pins with perst := false } }

/-- RESTART_RESET_BEGIN (14 R373). -/
def execRestartResetBegin (s : State) : Out :=
  match s.steward.pendingReset with
  | none => .next s
  | some k =>
    let s := { s with steward := { s.steward with pendingReset := none } }
    .next (match k with
      | .warm => s.warmTrigger
      | .cold => if s.powered then s.coldStart else s)

/-- A request resolved by a warm reset (18 R432 step 4). -/
def State.resolveReset (s : State) (r : Request) : State :=
  if 0 < r.segs ∧ (entryOpc r.entry = 1 ∨ entryOpc r.entry = 2) then s.finishFromPennant r
  else
    { s with requests := s.requests.filter (·.id != r.id) }.addOutcome
      ⟨r.sidx, r.rid, 0xFF, 0, 0, r.nent != 0, r.nent, r.segs, r.acked⟩

/-- Steps 3 and 4: every sealed record is in its ring, each stream with a record not acknowledged is fenced, and every request is
resolved in fetch order. -/
def State.settleReset (s : State) : State :=
  let s := (s.segments.filter fun g => g.state == SegState.sealed).foldl (fun s g => s.handover g) s
  let s := bothYards.foldl (fun s y => if (s.unsettled y).isEmpty then s else s.fence y 1) s
  s.requests.foldl (fun s r => s.resolveReset r) s

/-- A core through a warm reset (18 Table 18.4): registers as after a cold start, HPCC, HDCC, the bank's state and paddock kept. -/
def Core.warm (k : Core) : Core :=
  { Core.reset with
    run := if k.run = .paddock then .paddock else .stopped
    banks := Vector.replicate 4 (Bank.reset k.hpcc k.hdcc)
    hpcc := k.hpcc
    hdcc := k.hdcc
    corr := k.corr
    uncorr := k.uncorr
    spareMap := k.spareMap
    deadSpares := k.deadSpares
    scrubNext := k.scrubNext
    unrepaired := k.unrepaired
    cs := none
    csHist := k.csHist
    paddockDue := k.paddockDue
    retired := k.retired
    savedEn := k.savedEn }

/-- A yard through a warm reset (11 R284, 18 Table 18.4). -/
def YardState.warm (k : YardState) : YardState :=
  { k with claims := [], claimReqs := [], dir := [], stream := StreamDesc.off }

/-- Steps 5 and 6 (18 R432, Table 18.4): Halyard sends NOTREADY, every domain without retention is reset, and ST1 begins. -/
def State.warmReset (s : State) : State :=
  let s := s.abortOthers none
  let s := { s.resetHost with
    cores := s.cores.map Core.warm
    sheds := s.sheds.map fun (x : Shed) => { Shed.reset with loss := x.loss }.atClock 400
    l1d := []
    l1i := []
    yardA := s.yardA.warm
    yardB := s.yardB.warm
    segments := []
    sessions := s.sessions.map fun (n, (x : Session)) => (n, { x with held := false })
    mailboxes := s.mailboxes.map fun (b : Mailbox) => { Mailbox.reset with tag := b.tag, rsp := b.rsp, stored := b.stored }
    ports := s.ports.map fun (p : Port) => { Port.reset with
      linkUp := p.linkUp, notReady := true, inA := p.inA, inB := p.inB }
    steward := { s.steward with warmWait := false, moves := [], own := Steward.reset.own } }
  ((s.advanceRing .a).advanceRing .b).sendNotReady.enterSt1 .warm

/-- WARM_ACK_WAIT_END (18 R432 steps 3 to 6). -/
def execWarmAckWaitEnd (s : State) : Out := .next (if s.steward.warmWait then s.settleReset.warmReset else s)

/-! ## Recovery over SMBus (19 R453, R454) -/

/-- Whether the recovery address answers: during ST1 under BOOT_SEL = 0b01. -/
def State.recovering (s : State) : Bool := s.powered && s.steward.stage == 1 && s.pins.bootSel == 1

/-- The recovery address (19 R454). -/
def State.recoveryAddr (s : State) : Nat := 0x68 + s.pins.smbAddr.toNat

/-- A write to the recovery address that takes effect is acknowledged, and any other is not (19 R454). -/
def State.recoveryReply (s : State) (ok : Bool) (t : State) : State :=
  if s.recovering then (if ok then t else s).emit (.smbAck s.recoveryAddr ok) else s

/-- RECOVERY_WRITE (19 Table 19.4): bytes 0 to 3 are the offset. An image is received until its verification begins. -/
def execRecoveryWrite (data : List Byte) (pec : Pec) (s : State) : Out :=
  let off := fieldLe data 0 4
  .next (s.recoveryReply (s.smbAccepts pec && inRange 5 255 data.length && s.steward.recoveryState == 0
      && decide (off + (data.length - 4) ≤ recoveryMax))
    { s with steward := { s.steward with recovery := putImage s.steward.recovery off (data.drop 4) } })

/-- The header of the image received. -/
def Steward.recoveryHeader (w : Steward) : List Byte := (List.range 8).map fun i => Sparse.get 0 w.recovery i

/-- RECOVERY_VERIFY (19 Table 19.4): the verification of the image held begins; `imageOk` is its result, with which ST1 goes on (18 R430). -/
def execRecoveryVerify (v : Byte) (imageOk : Bool) (pec : Pec) (s : State) : Out :=
  .next (s.recoveryReply (s.smbAccepts pec && v == 1 && s.steward.recoveryState == 0)
    { s with steward := { s.steward with
      recoveryState := 1, recoveryOk := imageOk && (recoveryLen s.steward.recoveryHeader).isSome } })

/-- RECOVERY_STATUS (19 Table 19.4). -/
def execRecoveryStatus (s : State) : Out :=
  .next (if s.recovering then s.emit (.smbRead [BitVec.ofNat 8 s.steward.recoveryState]) else s)

/-! ## JTAG (19 R459, R460) -/

/-- The TAP instruction of a code; all ones is BYPASS, by IEEE 1149.1, and so is every unassigned code (19 R459, R460). -/
def tapInstruction (ir : BitVec 5) : Jtag :=
  if ir = 31 then .bypass else
  match (List.range 6).find? fun n => Config.jtagCode n == ir with
  | some 0 => .sample
  | some 1 => .extest
  | some 2 => .idcode
  | some 3 => .clamp
  | some 4 => .highz
  | some 5 => .dbgacc
  | _ => .bypass

/-- The instruction that the TAP carries out (19 R460): EXTEST, CLAMP and HIGHZ only while PWR_EN is low, DBGACC only with debug
access enabled on some core, else BYPASS. -/
def State.tapEffect (s : State) : Jtag :=
  match s.steward.jtag with
  | .extest => if s.pins.pwrEn then .bypass else .extest
  | .clamp => if s.pins.pwrEn then .bypass else .clamp
  | .highz => if s.pins.pwrEn then .bypass else .highz
  | .dbgacc => if s.cores.toList.any fun k => k.dbgctl.getLsbD 0 then .dbgacc else .bypass
  | j => j

/-- IDCODE (19 R459): revision, 0x0960, JEP106 code, 1. -/
def idcode : BitVec 32 := Config.revision.setWidth 4 ++ (0x0960 : BitVec 16) ++ Config.jep106 ++ (1 : BitVec 1)

/-- What the module drives on a signal; an input, and a module without VAUX, drives nothing (19 Table 19.2, R361, R451, R455). The external
flash is read within ST1's own command, so that between commands its port is idle; TDO is driven only while a register shifts. -/
def State.level (s : State) : Signal → Level
  | .smbAlertN => if s.pins.vaux && s.steward.smbAlert then .low else .highZ
  | .xspiClk => if s.pins.vaux then .low else .highZ
  | .xspiCsN => if s.pins.vaux then .high else .highZ
  | .ready => if !s.pins.vaux then .highZ else if s.pins.ready then .high else .low
  | .safe => if !s.pins.vaux then .highZ else if s.pins.safe then .high else .low
  | .faultN => if s.pins.vaux && s.faultN then .low else .highZ
  | .thermTripN => if s.pins.thermTrip then .low else .highZ
  | _ => .highZ

/-- What stands on a signal: what the module drives, or what drives it from outside, by its pull or as the strap was sampled; the lines that the
module does not hold are free (19 Tables 19.1, 19.2). -/
def State.seen (s : State) (x : Signal) : Bool :=
  match s.level x with
  | .low => false
  | .high => true
  | .highZ =>
    match x with
    | .perstN => !s.pins.perst
    | .pwrEn => s.pins.pwrEn
    | .trstN => s.pins.trstHigh
    | .smbAddr i => s.pins.smbAddr.getLsbD i.val
    | .bootSel i => s.pins.bootSel.getLsbD i.val
    | x => Config.signalLevel x s.fresh

/-- The data register that the TAP's instruction selects, as it captures (19 R459, R460): the identity, the boundary-scan register in the
order of the BSDL file, which is not in the spec, or the one zero bit of BYPASS. What DBGACC shifts the spec does not say. -/
def State.tapCapture (s : State) : Option Output :=
  match s.tapEffect with
  | .idcode => some (.tdo ((List.range 32).map fun i => idcode.getLsbD i))
  | .sample => some (.boundary (Config.boundaryCells.map fun x => (x, s.seen x)))
  | .extest => some (.boundary (Config.boundaryCells.map fun x => (x, s.seen x)))
  | .dbgacc => none
  | _ => some (.tdo [false])

/-- JTAG_INSTRUCTION_UPDATE (19 R459): the TAP works while VAUX is there, and that an instruction is updated shows TRST_N high, which has no
row of its own (DEDUCED, log entry 164). What the register that it selects then captures is put out. -/
def execJtagInstructionUpdate (ir : BitVec 5) (s : State) : Out :=
  .next (if s.pins.vaux then
      let s := { s with
        pins := { s.pins with trstHigh := true }
        steward := { s.steward with jtag := tapInstruction ir }
        fresh := s.fresh + 1 }
      (s.tapCapture.map s.emit).getD s
    else s)


end Sys2Proof.Machine
end

