-- ==== Sys2Proof/Machine/Dispatch.lean ====
section
/-! DEFINITION. The effect of every command, one arm per row of spec/opcode_table.json in its order. -/

namespace Sys2Proof.Machine

open Sys2Proof

/-- The effect of a command on everything but the queue. -/
def exec (i : Instr) (s : State) : Host.Outcome State Fault Refusal :=
  match i with
  | .mov c f => Sys2Proof.Machine.execMov c f s
  | .add c f => Sys2Proof.Machine.execAdd c f s
  | .sub c f => Sys2Proof.Machine.execSub c f s
  | .adc c f => Sys2Proof.Machine.execAdc c f s
  | .sbc c f => Sys2Proof.Machine.execSbc c f s
  | .neg c f => Sys2Proof.Machine.execNeg c f s
  | .cmp c f => Sys2Proof.Machine.execCmp c f s
  | .and c f => Sys2Proof.Machine.execAnd c f s
  | .or c f => Sys2Proof.Machine.execOr c f s
  | .xor c f => Sys2Proof.Machine.execXor c f s
  | .andn c f => Sys2Proof.Machine.execAndn c f s
  | .not c f => Sys2Proof.Machine.execNot c f s
  | .clz c w => Sys2Proof.Machine.execClz c w s
  | .popc c w => Sys2Proof.Machine.execPopc c w s
  | .shl c f => Sys2Proof.Machine.execShl c f s
  | .shrl c f => Sys2Proof.Machine.execShrl c f s
  | .shra c f => Sys2Proof.Machine.execShra c f s
  | .rol c f => Sys2Proof.Machine.execRol c f s
  | .ror c f => Sys2Proof.Machine.execRor c f s
  | .mul c f => Sys2Proof.Machine.execMul c f s
  | .mulw c f => Sys2Proof.Machine.execMulw c f s
  | .productWritten c => Sys2Proof.Machine.execProductWritten c s
  | .mwait c f => Sys2Proof.Machine.execMwait c f s
  | .mfmh c f => Sys2Proof.Machine.execMfmh c f s
  | .mfml c f => Sys2Proof.Machine.execMfml c f s
  | .div c w => Sys2Proof.Machine.execDiv c w s
  | .divu c w => Sys2Proof.Machine.execDivu c w s
  | .ldb c w => Sys2Proof.Machine.execLdb c w s
  | .ldh c w => Sys2Proof.Machine.execLdh c w s
  | .ldw c w => Sys2Proof.Machine.execLdw c w s
  | .ldbs c w => Sys2Proof.Machine.execLdbs c w s
  | .ldhs c w => Sys2Proof.Machine.execLdhs c w s
  | .ldws c w => Sys2Proof.Machine.execLdws c w s
  | .stb f => Sys2Proof.Machine.execStb f s
  | .sth f => Sys2Proof.Machine.execSth f s
  | .stw f => Sys2Proof.Machine.execStw f s
  | .mfs c w => Sys2Proof.Machine.execMfs c w s
  | .mts c w => Sys2Proof.Machine.execMts c w s
  | .detSlotReserved c => Sys2Proof.Machine.execDetSlotReserved c s
  | .movi c rd simm => Sys2Proof.Machine.execMovi c rd simm s
  | .addi c rd simm => Sys2Proof.Machine.execAddi c rd simm s
  | .shortLoadStore c store base g disp => Sys2Proof.Machine.execShortLoadStore c store base g disp s
  | .shortBranch c invert p simm => Sys2Proof.Machine.execShortBranch c invert p simm s
  | .shortPcmp c pd cond gs low => Sys2Proof.Machine.execShortPcmp c pd cond gs low s
  | .unassignedOpcode c u => Sys2Proof.Machine.execUnassignedOpcode c u s
  | .dadd c w => Sys2Proof.Machine.execDadd c w s
  | .dsub c w => Sys2Proof.Machine.execDsub c w s
  | .dmul c w => Sys2Proof.Machine.execDmul c w s
  | .ddiv c w => Sys2Proof.Machine.execDdiv c w s
  | .dmov c w => Sys2Proof.Machine.execDmov c w s
  | .dmovu c w => Sys2Proof.Machine.execDmovu c w s
  | .dcmp c w => Sys2Proof.Machine.execDcmp c w s
  | .dsrd c w => Sys2Proof.Machine.execDsrd c w s
  | .dtob c w => Sys2Proof.Machine.execDtob c w s
  | .dtobw c w => Sys2Proof.Machine.execDtobw c w s
  | .btod c w => Sys2Proof.Machine.execBtod c w s
  | .btodw c w => Sys2Proof.Machine.execBtodw c w s
  | .dpak c w => Sys2Proof.Machine.execDpak c w s
  | .dunp c w => Sys2Proof.Machine.execDunp c w s
  | .dtst c w => Sys2Proof.Machine.execDtst c w s
  | .smov c w => Sys2Proof.Machine.execSmov c w s
  | .smova c w => Sys2Proof.Machine.execSmova c w s
  | .sfil c w => Sys2Proof.Machine.execSfil c w s
  | .smvt c w => Sys2Proof.Machine.execSmvt c w s
  | .sxlt c w => Sys2Proof.Machine.execSxlt c w s
  | .scmp c w => Sys2Proof.Machine.execScmp c w s
  | .sfnd c w => Sys2Proof.Machine.execSfnd c w s
  | .schk c w => Sys2Proof.Machine.execSchk c w s
  | .sxu8 c w => Sys2Proof.Machine.execSxu8 c w s
  | .sxl1 c w => Sys2Proof.Machine.execSxl1 c w s
  | .edit c w => Sys2Proof.Machine.execEdit c w s
  | .editm c w => Sys2Proof.Machine.execEditm c w s
  | .scan c w => Sys2Proof.Machine.execScan c w s
  | .progressCommit c op w => Sys2Proof.Machine.execProgressCommit c op w s
  | .fadd c w => Sys2Proof.Machine.execFadd c w s
  | .fsub c w => Sys2Proof.Machine.execFsub c w s
  | .fmul c w => Sys2Proof.Machine.execFmul c w s
  | .fdiv c w => Sys2Proof.Machine.execFdiv c w s
  | .fsqrt c w => Sys2Proof.Machine.execFsqrt c w s
  | .fma c w => Sys2Proof.Machine.execFma c w s
  | .fcmp c w => Sys2Proof.Machine.execFcmp c w s
  | .fabs c w => Sys2Proof.Machine.execFabs c w s
  | .fneg c w => Sys2Proof.Machine.execFneg c w s
  | .ffromi c w => Sys2Proof.Machine.execFfromi c w s
  | .ftoi c w => Sys2Proof.Machine.execFtoi c w s
  | .frnd c w => Sys2Proof.Machine.execFrnd c w s
  | .fclass c w => Sys2Proof.Machine.execFclass c w s
  | .dfadd c w => Sys2Proof.Machine.execDfadd c w s
  | .dfsub c w => Sys2Proof.Machine.execDfsub c w s
  | .dfmul c w => Sys2Proof.Machine.execDfmul c w s
  | .dfdiv c w => Sys2Proof.Machine.execDfdiv c w s
  | .dfsqrt c w => Sys2Proof.Machine.execDfsqrt c w s
  | .dfma c w => Sys2Proof.Machine.execDfma c w s
  | .dfcmp c w => Sys2Proof.Machine.execDfcmp c w s
  | .dfabs c w => Sys2Proof.Machine.execDfabs c w s
  | .dfneg c w => Sys2Proof.Machine.execDfneg c w s
  | .dffromi c w => Sys2Proof.Machine.execDffromi c w s
  | .dftoi c w => Sys2Proof.Machine.execDftoi c w s
  | .dfrnd c w => Sys2Proof.Machine.execDfrnd c w s
  | .dfqua c w => Sys2Proof.Machine.execDfqua c w s
  | .dfclass c w => Sys2Proof.Machine.execDfclass c w s
  | .dqadd c w => Sys2Proof.Machine.execDqadd c w s
  | .dqsub c w => Sys2Proof.Machine.execDqsub c w s
  | .dqmul c w => Sys2Proof.Machine.execDqmul c w s
  | .dqdiv c w => Sys2Proof.Machine.execDqdiv c w s
  | .dqsqrt c w => Sys2Proof.Machine.execDqsqrt c w s
  | .dqfma c w => Sys2Proof.Machine.execDqfma c w s
  | .dqcmp c w => Sys2Proof.Machine.execDqcmp c w s
  | .dqabs c w => Sys2Proof.Machine.execDqabs c w s
  | .dqneg c w => Sys2Proof.Machine.execDqneg c w s
  | .dqfromi c w => Sys2Proof.Machine.execDqfromi c w s
  | .dqtoi c w => Sys2Proof.Machine.execDqtoi c w s
  | .dqrnd c w => Sys2Proof.Machine.execDqrnd c w s
  | .dqqua c w => Sys2Proof.Machine.execDqqua c w s
  | .dqclass c w => Sys2Proof.Machine.execDqclass c w s
  | .ftodf c w => Sys2Proof.Machine.execFtodf c w s
  | .dftof c w => Sys2Proof.Machine.execDftof c w s
  | .dftodq c w => Sys2Proof.Machine.execDftodq c w s
  | .dqtodf c w => Sys2Proof.Machine.execDqtodf c w s
  | .ftodq c w => Sys2Proof.Machine.execFtodq c w s
  | .dqtof c w => Sys2Proof.Machine.execDqtof c w s
  | .ptodq c w => Sys2Proof.Machine.execPtodq c w s
  | .dqtop c w => Sys2Proof.Machine.execDqtop c w s
  | .fpResultWritten c => Sys2Proof.Machine.execFpResultWritten c s
  | .cld c w => Sys2Proof.Machine.execCld c w s
  | .cst c w => Sys2Proof.Machine.execCst c w s
  | .cmov c w => Sys2Proof.Machine.execCmov c w s
  | .cgeta c w => Sys2Proof.Machine.execCgeta c w s
  | .cgetb c w => Sys2Proof.Machine.execCgetb c w s
  | .cgett c w => Sys2Proof.Machine.execCgett c w s
  | .cgetp c w => Sys2Proof.Machine.execCgetp c w s
  | .cseta c w => Sys2Proof.Machine.execCseta c w s
  | .cinc c w => Sys2Proof.Machine.execCinc c w s
  | .csetb c w => Sys2Proof.Machine.execCsetb c w s
  | .csetbx c w => Sys2Proof.Machine.execCsetbx c w s
  | .cnarrow c w => Sys2Proof.Machine.execCnarrow c w s
  | .cperm c w => Sys2Proof.Machine.execCperm c w s
  | .ckey c w => Sys2Proof.Machine.execCkey c w s
  | .cseal c w => Sys2Proof.Machine.execCseal c w s
  | .cunseal c w => Sys2Proof.Machine.execCunseal c w s
  | .cmfs c w => Sys2Proof.Machine.execCmfs c w s
  | .cmts c w => Sys2Proof.Machine.execCmts c w s
  | .ceq c w => Sys2Proof.Machine.execCeq c w s
  | .tagget c w => Sys2Proof.Machine.execTagget c w s
  | .tagset c w => Sys2Proof.Machine.execTagset c w s
  | .tagcode c w => Sys2Proof.Machine.execTagcode c w s
  | .br c w => Sys2Proof.Machine.execBr c w s
  | .brl c w => Sys2Proof.Machine.execBrl c w s
  | .jmp c w => Sys2Proof.Machine.execJmp c w s
  | .jmpl c w => Sys2Proof.Machine.execJmpl c w s
  | .retx c w => Sys2Proof.Machine.execRetx c w s
  | .trap c w => Sys2Proof.Machine.execTrap c w s
  | .pcmp c w => Sys2Proof.Machine.execPcmp c w s
  | .plog c w => Sys2Proof.Machine.execPlog c w s
  | .pflg c w => Sys2Proof.Machine.execPflg c w s
  | .iflush c w => Sys2Proof.Machine.execIflush c w s
  | .fence c w => Sys2Proof.Machine.execFence c w s
  | .tas c w => Sys2Proof.Machine.execTas c w s
  | .btas c w => Sys2Proof.Machine.execBtas c w s
  | .badd c w => Sys2Proof.Machine.execBadd c w s
  | .bswp c w => Sys2Proof.Machine.execBswp c w s
  | .lrsv c w => Sys2Proof.Machine.execLrsv c w s
  | .stcn c w => Sys2Proof.Machine.execStcn c w s
  | .jopen f => Sys2Proof.Machine.execJopen f s
  | .seal f => Sys2Proof.Machine.execSeal f s
  | .seala f => Sys2Proof.Machine.execSeala f s
  | .jdrop f => Sys2Proof.Machine.execJdrop f s
  | .waitd f => Sys2Proof.Machine.execWaitd f s
  | .post f => Sys2Proof.Machine.execPost f s
  | .signal c w => Sys2Proof.Machine.execSignal c w s
  | .nop c w => Sys2Proof.Machine.execNop c w s
  | .storeBufferDrain c => Sys2Proof.Machine.execStoreBufferDrain c s
  | .l2MissFill shed line bad => Sys2Proof.Machine.execL2MissFill shed line bad s
  | .keyCacheFill shed page => Sys2Proof.Machine.execKeyCacheFill shed page s
  | .refChgSetRequest => Sys2Proof.Machine.execRefChgSetRequest s
  | .interruptRecognition c => Sys2Proof.Machine.execInterruptRecognition c s
  | .synchronousExceptionEntry c e => Sys2Proof.Machine.execSynchronousExceptionEntry c e s
  | .doubleException c e => Sys2Proof.Machine.execDoubleException c e s
  | .paddockDump c => Sys2Proof.Machine.execPaddockDump c s
  | .restartEntry c cause => Sys2Proof.Machine.execRestartEntry c cause s
  | .timerMatch c => Sys2Proof.Machine.execTimerMatch c s
  | .stewardSignal c code arg => Sys2Proof.Machine.execStewardSignal c code arg s
  | .controlStoreError c flips trail => Sys2Proof.Machine.execControlStoreError c flips trail s
  | .controlStoreReload c first second => Sys2Proof.Machine.execControlStoreReload c first second s
  | .shedWindowAccess c acc hits => Sys2Proof.Machine.execShedWindowAccess c acc hits s
  | .commitWordRepresented c addr data tag busy => Sys2Proof.Machine.execCommitWordRepresented c addr data tag busy s
  | .secdedCorrection c word double => Sys2Proof.Machine.execSecdedCorrection c word double s
  | .bankScrubRow c errs => Sys2Proof.Machine.execBankScrubRow c errs s
  | .marchStripe c stripe failed spares => Sys2Proof.Machine.execMarchStripe c stripe failed spares s
  | .rowRepairTrigger c row => Sys2Proof.Machine.execRowRepairTrigger c row s
  | .shedRetentionEnter shed => Sys2Proof.Machine.execShedRetentionEnter shed s
  | .shedWake shed => Sys2Proof.Machine.execShedWake shed s
  | .lineRead y n errs => Sys2Proof.Machine.execLineRead y n errs s
  | .lateChunk y n pos differs => Sys2Proof.Machine.execLateChunk y n pos differs s
  | .lineWrite y n off data tags => Sys2Proof.Machine.execLineWrite y n off data tags s
  | .directoryReadMiss shed line => Sys2Proof.Machine.execDirectoryReadMiss shed line s
  | .directoryOwnership shed line => Sys2Proof.Machine.execDirectoryOwnership shed line s
  | .directoryEviction shed line => Sys2Proof.Machine.execDirectoryEviction shed line s
  | .directoryReplacement line => Sys2Proof.Machine.execDirectoryReplacement line s
  | .channelFailed y ch => Sys2Proof.Machine.execChannelFailed y ch s
  | .rebuildStart y => Sys2Proof.Machine.execRebuildStart y s
  | .rebuildStep y errs => Sys2Proof.Machine.execRebuildStep y errs s
  | .patrolScrubLine y errs back => Sys2Proof.Machine.execPatrolScrubLine y errs back s
  | .yardInitialisation y back => Sys2Proof.Machine.execYardInitialisation y back s
  | .claimRequest o line => Sys2Proof.Machine.execClaimRequest o line s
  | .claimGrant o line => Sys2Proof.Machine.execClaimGrant o line s
  | .claimTimeout o line => Sys2Proof.Machine.execClaimTimeout o line s
  | .segmentRollback segno bad => Sys2Proof.Machine.execSegmentRollback segno bad s
  | .sealPoint o => Sys2Proof.Machine.execSealPoint o s
  | .segmentRecordHandover segno => Sys2Proof.Machine.execSegmentRecordHandover segno s
  | .ringMarkCrossing y => Sys2Proof.Machine.execRingMarkCrossing y s
  | .streamRecordCopy y => Sys2Proof.Machine.execStreamRecordCopy y s
  | .streamConsWrite y v => Sys2Proof.Machine.execStreamConsWrite y v s
  | .sqTailDoorbell q v => Sys2Proof.Machine.execSqTailDoorbell q v s
  | .cqHeadDoorbell q v => Sys2Proof.Machine.execCqHeadDoorbell q v s
  | .entryFetch q entry => Sys2Proof.Machine.execEntryFetch q entry s
  | .dispatch o => Sys2Proof.Machine.execDispatch o s
  | .payloadArrival o slot payload ok => Sys2Proof.Machine.execPayloadArrival o slot payload ok s
  | .requestCompletion id => Sys2Proof.Machine.execRequestCompletion id s
  | .deadlineExpiry id => Sys2Proof.Machine.execDeadlineExpiry id s
  | .coreLossResolution id => Sys2Proof.Machine.execCoreLossResolution id s
  | .requestReturn id newOwner => Sys2Proof.Machine.execRequestReturn id newOwner s
  | .flr => Sys2Proof.Machine.execFlr s
  | .mbdbRing m ag => Sys2Proof.Machine.execMbdbRing m ag s
  | .mbsemAcq m ag => Sys2Proof.Machine.execMbsemAcq m ag s
  | .mbsemRel m ag => Sys2Proof.Machine.execMbsemRel m ag s
  | .registerWrite r off width v => Sys2Proof.Machine.execRegisterWrite r off width v s
  | .debugHaltRequest c => Sys2Proof.Machine.execDebugHaltRequest c s
  | .identify m => Sys2Proof.Machine.execIdentify m s
  | .status m => Sys2Proof.Machine.execStatus m s
  | .setPolicy m => Sys2Proof.Machine.execSetPolicy m s
  | .sessionOpen m choice => Sys2Proof.Machine.execSessionOpen m choice s
  | .sessionClose m => Sys2Proof.Machine.execSessionClose m s
  | .sessionMoveCore m choice => Sys2Proof.Machine.execSessionMoveCore m choice s
  | .sessionMoveExport m => Sys2Proof.Machine.execSessionMoveExport m s
  | .imageLoad m image => Sys2Proof.Machine.execImageLoad m image s
  | .keySet m => Sys2Proof.Machine.execKeySet m s
  | .queueCreate m => Sys2Proof.Machine.execQueueCreate m s
  | .queueDeleteSq m => Sys2Proof.Machine.execQueueDeleteSq m s
  | .queueDeleteCq m => Sys2Proof.Machine.execQueueDeleteCq m s
  | .mirrorPair m => Sys2Proof.Machine.execMirrorPair m s
  | .mirrorPairTimeout m => Sys2Proof.Machine.execMirrorPairTimeout m s
  | .mirrorFence m => Sys2Proof.Machine.execMirrorFence m s
  | .mirrorTakeover m => Sys2Proof.Machine.execMirrorTakeover m s
  | .queryRequest m => Sys2Proof.Machine.execQueryRequest m s
  | .queryBatch m => Sys2Proof.Machine.execQueryBatch m s
  | .journalStreamStart m => Sys2Proof.Machine.execJournalStreamStart m s
  | .journalStreamStop m => Sys2Proof.Machine.execJournalStreamStop m s
  | .marchRunPreserving m found => Sys2Proof.Machine.execMarchRunPreserving m found s
  | .marchRunDestructive m found => Sys2Proof.Machine.execMarchRunDestructive m found s
  | .scrubCtl m => Sys2Proof.Machine.execScrubCtl m s
  | .coreRetire m choice => Sys2Proof.Machine.execCoreRetire m choice s
  | .coreRelease m first second => Sys2Proof.Machine.execCoreRelease m first second s
  | .logRead m => Sys2Proof.Machine.execLogRead m s
  | .timeSet m => Sys2Proof.Machine.execTimeSet m s
  | .restartCore m choice => Sys2Proof.Machine.execRestartCore m choice s
  | .restartWarm m => Sys2Proof.Machine.execRestartWarm m s
  | .restartCold m containers => Sys2Proof.Machine.execRestartCold m containers s
  | .smbSetOffset off pec => Sys2Proof.Machine.execSmbSetOffset off pec s
  | .smbBlockTransfer t pec => Sys2Proof.Machine.execSmbBlockTransfer t pec s
  | .smbRing v pec => Sys2Proof.Machine.execSmbRing v pec s
  | .smbSemaphore t pec => Sys2Proof.Machine.execSmbSemaphore t pec s
  | .smbReadMbsts => Sys2Proof.Machine.execSmbReadMbsts s
  | .alertResponse => Sys2Proof.Machine.execAlertResponse s
  | .recoveryWrite data pec => Sys2Proof.Machine.execRecoveryWrite data pec s
  | .recoveryVerify v imageOk pec => Sys2Proof.Machine.execRecoveryVerify v imageOk pec s
  | .recoveryStatus => Sys2Proof.Machine.execRecoveryStatus s
  | .dataFrameSend port => Sys2Proof.Machine.execDataFrameSend port s
  | .dataFrame port f => Sys2Proof.Machine.execDataFrame port f s
  | .refuse port f => Sys2Proof.Machine.execRefuse port f s
  | .exported port f => Sys2Proof.Machine.execExported port f s
  | .taken port f => Sys2Proof.Machine.execTaken port f s
  | .ack port f => Sys2Proof.Machine.execAck port f s
  | .nak port f => Sys2Proof.Machine.execNak port f s
  | .hello port f => Sys2Proof.Machine.execHello port f s
  | .notready port f => Sys2Proof.Machine.execNotready port f s
  | .replayTimeout port => Sys2Proof.Machine.execReplayTimeout port s
  | .ackHeartbeat port => Sys2Proof.Machine.execAckHeartbeat port s
  | .helloTimer port => Sys2Proof.Machine.execHelloTimer port s
  | .notreadyTimer port => Sys2Proof.Machine.execNotreadyTimer port s
  | .portDown port why => Sys2Proof.Machine.execPortDown port why s
  | .portUp port => Sys2Proof.Machine.execPortUp port s
  | .acktmoExpiry y => Sys2Proof.Machine.execAcktmoExpiry y s
  | .lockstepMismatch checker => Sys2Proof.Machine.execLockstepMismatch checker s
  | .stewardSelfTest pass => Sys2Proof.Machine.execStewardSelfTest pass s
  | .coreParityStop c => Sys2Proof.Machine.execCoreParityStop c s
  | .hangWatchdog c => Sys2Proof.Machine.execHangWatchdog c s
  | .aisleCrcFailure stop decreasing failures => Sys2Proof.Machine.execAisleCrcFailure stop decreasing failures s
  | .gateParityError k unit => Sys2Proof.Machine.execGateParityError k unit s
  | .regulatorPhaseFault domain phase => Sys2Proof.Machine.execRegulatorPhaseFault domain phase s
  | .controlLoopTick r => Sys2Proof.Machine.execControlLoopTick r s
  | .clockChange shed mhz => Sys2Proof.Machine.execClockChange shed mhz s
  | .droopStretch shed fall => Sys2Proof.Machine.execDroopStretch shed fall s
  | .throttleMigration shed src dst => Sys2Proof.Machine.execThrottleMigration shed src dst s
  | .agingCheck loss choice => Sys2Proof.Machine.execAgingCheck loss choice s
  | .thermalTrip sensor reading => Sys2Proof.Machine.execThermalTrip sensor reading s
  | .fatalStop code => Sys2Proof.Machine.execFatalStop code s
  | .vauxApplied bootSel smbAddr => Sys2Proof.Machine.execVauxApplied bootSel smbAddr s
  | .refclkStart => Sys2Proof.Machine.execRefclkStart s
  | .st1 b => Sys2Proof.Machine.execSt1 b s
  | .st2 => Sys2Proof.Machine.execSt2 s
  | .st3 t => Sys2Proof.Machine.execSt3 t s
  | .st4 first second => Sys2Proof.Machine.execSt4 first second s
  | .st5 => Sys2Proof.Machine.execSt5 s
  | .st6 => Sys2Proof.Machine.execSt6 s
  | .perstNAssert => Sys2Proof.Machine.execPerstNAssert s
  | .warmAckWaitEnd => Sys2Proof.Machine.execWarmAckWaitEnd s
  | .perstNDeassert => Sys2Proof.Machine.execPerstNDeassert s
  | .pwrEnHigh => Sys2Proof.Machine.execPwrEnHigh s
  | .pwrEnLow => Sys2Proof.Machine.execPwrEnLow s
  | .vinLoss => Sys2Proof.Machine.execVinLoss s
  | .vauxLoss => Sys2Proof.Machine.execVauxLoss s
  | .refclkStop => Sys2Proof.Machine.execRefclkStop s
  | .jtagInstructionUpdate ir => Sys2Proof.Machine.execJtagInstructionUpdate ir s
  | .droopStretchEnd shed => Sys2Proof.Machine.execDroopStretchEnd shed s
  | .reservedFrameReceived port f => Sys2Proof.Machine.execReservedFrameReceived port f s
  | .restartResetBegin => Sys2Proof.Machine.execRestartResetBegin s

end Sys2Proof.Machine
end

