-- ==== Sys2Proof/Safety.lean ====
section
/-! DEFINITION. The terms the statements use: what a safe run is; when an instruction issues with every check of 07 Table 7.2
passed, and the state that one leaves which completes. -/

namespace Sys2Proof.Machine

open Sys2Proof

/-- A step that answers a next state. -/
def Goes (s : State) : Prop := ∃ t, step s = .next t

/-- The state an instruction of `len` bytes is checked in: results still due have landed (04 R129), and the fetch has asked for REF
of the pages it reads and taken its lines (11 R309, 10 Tables 10.6, 10.7); one that waits has been fetched before (08 R216). -/
def State.fetched (s : State) (c : CoreId) (len : Nat) : State :=
  if (s.core c).held.isNone then (s.modCore c Core.landFp).fetchLines c ((s.core c).landFp.pcc.cursor.toNat) len
  else s.modCore c Core.landFp

/-- An instruction of opcode `opc`, `len` bytes and fields `w` issues and every check of 07 Table 7.2 passes: its core runs, holds no other
instruction that waits (08 R216), and its engine stands at no word that raises (09 R245); it is no annulled slot; ranks 1 to 4 find nothing
(`bad` is what its encoding raises, in a delay slot or out of it); its guard is true; ranks 5 to 8 find nothing (`check`); and at rank 9 no
rollback owes the core a fault, the entry word of a micro-coded one does not fail (09 R247), and no register it interprets is marked. One
that waits itself, and goes on, has passed ranks 1 to 4 before. Execution starts from `u`. -/
structure Passes (s : State) (c : CoreId) (opc len : Nat) (w : L64) (bad : Bool → Option (Nat × Nat × Nat)) (guard : Core → Bool)
    (check : State → Option ExcOperand) (uses : State → List Use) (u : State) : Prop where
  runs : s.canIssue c = true
  turn : (s.core c).turn opc len w = true
  slot : ((s.core c).landFp.delay.map (·.annul)).getD false = false
  early : (s.core c).held = none → (s.modCore c Core.landFp).earlyFault c len (bad (s.core c).landFp.delay.isSome) = none
  guarded : guard (s.core c).landFp = true
  access : check (s.fetched c len) = none
  owed : ((s.fetched c len).core c).owedFault = none
  start : u = (s.fetched c len).readied c (uses (s.fetched c len))
  entry : (u.core c).entryFails opc = false
  whole : (u.core c).beginOnly = false
  marked : u.markFault c (uses u) = none

/-- As `Passes`, for an L64 instruction, or an S16 one as its L64 counterpart: encoding checks of 03 Table 3.17, its guard (03 R67),
and the access checks of ranks 6 to 8 over its operands (02 R45). -/
abbrev PassesL (s : State) (c : CoreId) (opc len : Nat) (e : Enc) (w : L64) (uses : State → List Use) (u : State) : Prop :=
  Passes s c opc len w (e.bad w) (guardOf w) (fun s => s.accessFault c (uses s)) uses u

/-- The state that an instruction of `len` bytes, issued in `s`, leaves when it completes as `d` says. -/
def State.finished (s : State) (c : CoreId) (len : Nat) (d : Done) : State :=
  ((s.fetched c len).complete c len d).noteAhead (s.fetched c len) c len true true

/-- The state that an instruction of `len` bytes, issued in `s`, leaves when it takes an exception of ranks 5 to 9 in `u`. -/
def State.faulted (s : State) (c : CoreId) (len : Nat) (e : ExcOperand) (u : State) : State :=
  (u.raise c len e).noteAhead (s.fetched c len) c len true false

/-- The state that an instruction of opcode `opc`, `len` bytes and fields `w`, issued in `s`, leaves when it waits in `u`. -/
def State.waiting (s : State) (c : CoreId) (opc len : Nat) (w : L64) (endsGrace : Bool) (u : State) : State :=
  (u.held c opc len w endsGrace).noteAhead (s.fetched c len) c len false false

end Sys2Proof.Machine
end

