-- ==== Sys2Proof/Certificates/Slice0/Obligations.lean ====
section
/-! DEFINITION. The statements for the provers. They are about the meaning of every command, about what the shared operations do, and
about what every step keeps. -/

open Sys2Proof Sys2Proof.Machine

/-- The steward pair serves its requests: it runs, out of standby, and no warm reset has begun (18 R432, R439; 19 R456). -/
def Sys2Proof.Claims.Serves (s : State) : Prop :=
  s.pins.vaux = true ∧ s.pins.refclk = true ∧ s.steward.standby = false ∧ s.steward.warmWait = false


/-- An instruction of a running core reaches its access checks: no other waits, its slot is not annulled, ranks 1 to 4 find nothing, its
guard is true, and no rollback owes the core a fault. -/
def Sys2Proof.Claims.Reaches (s : State) (c : CoreId) (opc len : Nat) (w : L64) (bad : Bool → Option (Nat × Nat × Nat)) : Prop :=
  s.canIssue c = true ∧ (s.core c).turn opc len w = true ∧ (s.core c).held = none ∧
    ((s.core c).landFp.delay.map (·.annul)).getD false = false ∧
    (s.modCore c Core.landFp).earlyFault c len (bad (s.core c).landFp.delay.isSome) = none ∧
    guardOf w (s.core c).landFp = true ∧ (s.core c).owedFault = none

/-- An instruction takes the exception `e` with nothing of its own done: memory, every other core, FLAGS and the current bank stay, and the
core is at its vector one depth up with CAUSE and FADDR of `e`, or, at depth 3, stopped by it (07 R188, R195, R209). -/
def Sys2Proof.Claims.Faults (i : Instr) (s : State) (c : CoreId) (e : ExcOperand) : Prop :=
  ∃ t, exec i s = .next t ∧ t.mem = s.mem ∧ (∀ d, d ≠ c → t.core d = s.core d) ∧
    let k := (s.core c).landFp
    let x := t.core c
    x.flags = k.flags ∧ x.banks[k.depth] = k.banks[k.depth] ∧
    (k.depth.val < 3 → x.depth.val = k.depth.val + 1 ∧ x.run = .running ∧ x.faddr = e.faddr ∧
      x.cause.toNat = e.code.toNat + e.vec.val * 0x10000 + e.opnd.toNat * 0x400000 ∧
      x.pcc = k.hpcc.withCursor (0x20 * e.vec.val : Nat)) ∧
    (k.depth.val = 3 → x.run = .fatal e 1)

/-- Whether a core's C15 holds SYS authority: a valid, unsealed capability with SYS (02 R21). -/
def Sys2Proof.Claims.HasSys (k : Core) : Prop := (k.getC 15).valid = true ∧ (k.getC 15).sealed = false ∧ (k.getC 15).has .sys = true
/-! ## The binary group -/

namespace Sys2Proof.Claims

/-- Result, V and C of an integer instruction; `none` leaves the flag. -/
abbrev IntResult := Word × Option Bool × Option Bool

/-- Addition on exact integers (04 R99). -/
def sum (cin : Bool) (x y : Word) : IntResult :=
  let i : Nat := if cin then 1 else 0
  (x + y + BitVec.ofNat 64 i, some (decide (x.toInt + y.toInt + i < -2 ^ 63 ∨ 2 ^ 63 ≤ x.toInt + y.toInt + i)),
    some (decide (2 ^ 64 ≤ x.toNat + y.toNat + i)))

/-- Subtraction on exact integers (04 R99). -/
def difference (cin : Bool) (x y : Word) : IntResult :=
  let i : Nat := if cin then 1 else 0
  (x - y - BitVec.ofNat 64 i, some (decide (x.toInt - y.toInt - i < -2 ^ 63 ∨ 2 ^ 63 ≤ x.toInt - y.toInt - i)),
    some (decide (x.toNat < y.toNat + i)))

/-- A logical result. -/
def plain (r : Word) : IntResult := (r, none, none)

/-- A shift by an unsigned 64-bit count: the result, and the last bit shifted out, which is zero past 64 places (04 R101). -/
def shifted (r out : Word → Nat → Word) (bit : Nat) (x y : Word) : IntResult :=
  (r x (min y.toNat 64), none, if y = 0 then none else some (decide (y.toNat ≤ 64) && (out x (min y.toNat 64 - 1)).getLsbD bit))

/-- The three-operand integer instructions: whether V can raise INTEGER_OVERFLOW, and the result from carry in, x and y. -/
def threeOperand : List ((CoreId → AluForm → Instr) × Nat × Bool × (Bool → Word → Word → IntResult)) :=
  [(.add, 0x001, true, fun _ => sum false), (.sub, 0x002, true, fun _ => difference false),
   (.adc, 0x003, true, sum), (.sbc, 0x004, true, difference),
   (.and, 0x008, false, fun _ x y => plain (x &&& y)), (.or, 0x009, false, fun _ x y => plain (x ||| y)),
   (.xor, 0x00A, false, fun _ x y => plain (x ^^^ y)), (.andn, 0x00B, false, fun _ x y => plain (x &&& ~~~y)),
   (.shl, 0x010, false, fun _ => shifted (fun x n => x <<< n) (fun x n => x <<< n) 63),
   (.shrl, 0x011, false, fun _ => shifted (fun x n => x >>> n) (fun x n => x >>> n) 0),
   (.shra, 0x012, false, fun _ => shifted (fun x n => x.sshiftRight n) (fun x n => x.sshiftRight n) 0),
   (.rol, 0x013, false, fun _ x y =>
     (x.rotateLeft (y.toNat % 64), none, if y.toNat % 64 = 0 then none else some ((x.rotateLeft (y.toNat % 64)).getLsbD 0))),
   (.ror, 0x014, false, fun _ x y =>
     (x.rotateRight (y.toNat % 64), none, if y.toNat % 64 = 0 then none else some ((x.rotateRight (y.toNat % 64)).getLsbD 63)))]

/-- The two-operand integer instructions. -/
def twoOperand : List ((CoreId → AluForm → Instr) × Nat × Bool × (Word → IntResult)) :=
  [(.neg, 0x005, true, fun x => difference false 0 x), (.not, 0x00C, false, fun x => plain (~~~x)),
   (fun c f => .clz c (formTwo f), 0x00D, false, fun x => plain (BitVec.ofNat 64 (leadingZeros x))),
   (fun c f => .popc c (formTwo f), 0x00E, false, fun x => plain (BitVec.ofNat 64 (oneBits x)))]

/-- FLAGS after a result, bit by bit (04 R98, Table 4.1). -/
def FlagsAfter (old new : Word) (q : IntResult) : Prop :=
  new.getLsbD 0 = (q.1 == 0) ∧ new.getLsbD 1 = q.1.getLsbD 63 ∧ new.getLsbD 2 = q.2.1.getD (old.getLsbD 2)
    ∧ new.getLsbD 3 = q.2.2.getD (old.getLsbD 3) ∧ ∀ i, 4 ≤ i → new.getLsbD i = old.getLsbD i

end Sys2Proof.Claims

/-- ADD, SUB, ADC, SBC, the logical instructions, the shifts and the rotates, in every operand form (04 R98, R99, R101, R102): when
every check passes and V would not raise INTEGER_OVERFLOW, A takes the result tagged BIN, FLAGS follow it, the cursors of modes 3 and 4
are written, and the instruction is over. -/
def Sys2Proof.Claims.IntegerThreeOperandResult : Prop :=
  ∀ e ∈ Claims.threeOperand, ∀ (c : CoreId) (f : AluForm) (s u p : State) (fl : Word),
    let w := formThree f
    let q := e.2.2.2 ((u.core c).flags.getLsbD 3) (u.value c (opB u c w) 8).w (u.value c (opC u c w) 8).w
    PassesL s c e.2.1 (formLen f) encDVV w (fun s => [(opA s c w).dest, (opB s c w).source, (opC s c w).source]) u →
    (e.2.2.1 = true → (u.core c).iove = true → q.2.1 ≠ some true) →
    u.putValue c (opA u c w) 8 ⟨q.1.toNat, Tag.bin, none⟩ = .ok p →
    Claims.FlagsAfter (p.core c).flags fl q →
    exec (e.1 c f) s = .next (s.finished c (formLen f)
      { s := (p.modCore c fun k => { k with flags := fl }).updateCursors c [opA u c w, opB u c w, opC u c w] })

/-- NEG, NOT, CLZ and POPC in the same way, CLZ and POPC in their L64 form only (04 R98, R99). -/
def Sys2Proof.Claims.IntegerTwoOperandResult : Prop :=
  ∀ e ∈ Claims.twoOperand, ∀ (c : CoreId) (f : AluForm) (s u p : State) (fl : Word),
    let w := formTwo f
    let q := e.2.2.2 (u.value c (opB u c w) 8).w
    (e.2.1 = 0x00D ∨ e.2.1 = 0x00E → formLen f = 8) →
    PassesL s c e.2.1 (formLen f) encDV w (fun s => [(opA s c w).dest, (opB s c w).source]) u →
    (e.2.2.1 = true → (u.core c).iove = true → q.2.1 ≠ some true) →
    u.putValue c (opA u c w) 8 ⟨q.1.toNat, Tag.bin, none⟩ = .ok p →
    Claims.FlagsAfter (p.core c).flags fl q →
    exec (e.1 c f) s = .next (s.finished c (formLen f)
      { s := (p.modCore c fun k => { k with flags := fl }).updateCursors c [opA u c w, opB u c w] })

/-- With STATUS.IOVE = 1 an ADD, ADC, SUB, SBC or NEG that would set V raises INTEGER_OVERFLOW with its opcode, from the state before
it: it writes no destination, flag, MH or cursor (04 R100); DIV of −2^63 by −1 is another statement's. -/
def Sys2Proof.Claims.IntegerOverflowTrap : Prop :=
  (∀ e ∈ Claims.threeOperand, ∀ (c : CoreId) (f : AluForm) (s u : State),
    let w := formThree f
    e.2.2.1 = true → (u.core c).iove = true →
    PassesL s c e.2.1 (formLen f) encDVV w (fun s => [(opA s c w).dest, (opB s c w).source, (opC s c w).source]) u →
    (e.2.2.2 ((u.core c).flags.getLsbD 3) (u.value c (opB u c w) 8).w (u.value c (opC u c w) 8).w).2.1 = some true →
    exec (e.1 c f) s = .next (s.faulted c (formLen f) ⟨12, BitVec.ofNat 16 e.2.1, 3, 0⟩ u)) ∧
  (∀ e ∈ Claims.twoOperand, ∀ (c : CoreId) (f : AluForm) (s u : State),
    let w := formTwo f
    e.2.2.1 = true → (u.core c).iove = true →
    PassesL s c e.2.1 (formLen f) encDV w (fun s => [(opA s c w).dest, (opB s c w).source]) u →
    (e.2.2.2 (u.value c (opB u c w) 8).w).2.1 = some true →
    exec (e.1 c f) s = .next (s.faulted c (formLen f) ⟨12, BitVec.ofNat 16 e.2.1, 3, 0⟩ u))

/-- CMP sets the flags of A − B and writes nothing else, whatever STATUS.IOVE holds (04 R98–R100); ADDI is ADD of rd and its
sign-extended immediate (03 Table 3.3). -/
def Sys2Proof.Claims.CompareAndAddImmediate : Prop :=
  (∀ (c : CoreId) (f : AluForm) (s u : State) (fl : Word),
    let w := formTwo f
    PassesL s c 0x006 (formLen f) encVV w (fun s => [(opA s c w).source, (opB s c w).source]) u →
    Claims.FlagsAfter (u.core c).flags fl (Claims.difference false (u.value c (opA u c w) 8).w (u.value c (opB u c w) 8).w) →
    exec (.cmp c f) s = .next (s.finished c (formLen f)
      { s := (u.modCore c fun k => { k with flags := fl }).updateCursors c [opA u c w, opB u c w] })) ∧
  (∀ (c : CoreId) (rd : BitVec 4) (simm : BitVec 8) (s u : State) (fl : Word),
    let w := plainL (regSpec rd) (regSpec rd) 0
    let q := Claims.sum false ((u.core c).getG rd).val (simm.signExtend 64)
    PassesL s c 0x401 2 encDV w (fun s => [(opA s c w).dest, (opB s c w).source]) u →
    ((u.core c).iove = true → q.2.1 ≠ some true) →
    Claims.FlagsAfter (u.core c).flags fl q →
    exec (.addi c rd simm) s = .next (s.finished c 2
      { s := u.modCore c fun k => { k.setG rd q.1 Tag.bin with flags := fl } }))

/-- MOV and the short load and store deliver value, tag and collision mark; MOVI its sign-extended immediate tagged BIN; the loads their
bytes, zero- or sign-extended, with the tag of the words they read; STB, STH and STW the low bytes of B under B's tag (03 R64, Table 3.3; 04
R98, R104, R105; 10 R265). That a collision mark goes along with a moved value is the model's choice (log entry 20). -/
def Sys2Proof.Claims.CoreMovesLoadsAndStores : Prop :=
  (∀ (c : CoreId) (f : AluForm) (s u p : State),
    let w := formTwo f
    PassesL s c 0x000 (formLen f) encDV w (moveUses c w) u →
    u.putValue c (opA u c w) 8 (u.value c (opB u c w) 8) = .ok p →
    exec (.mov c f) s = .next (s.finished c (formLen f) { s := p.updateCursors c [opA u c w, opB u c w] })) ∧
  (∀ (c : CoreId) (store : Bool) (base : BitVec 2) (g : BitVec 4) (disp : BitVec 7) (s u p : State),
    let m := shortSpec base disp
    let w := if store then plainL m (regSpec g) 0 else plainL (regSpec g) m 0
    PassesL s c 0x000 2 encDV w (moveUses c w) u →
    u.putValue c (opA u c w) 8 (u.value c (opB u c w) 8) = .ok p →
    exec (.shortLoadStore c store base g disp) s = .next (s.finished c 2 { s := p.updateCursors c [opA u c w, opB u c w] })) ∧
  (∀ (c : CoreId) (rd : BitVec 4) (simm : BitVec 8) (s u : State),
    PassesL s c 0x400 2 encD (plainL (regSpec rd) 0 0) (fun _ => []) u →
    exec (.movi c rd simm) s = .next (s.finished c 2
      { s := u.modCore c fun k => k.setG rd (BitVec.ofInt 64 simm.toInt) Tag.bin })) ∧
  (∀ e ∈ ([(.ldb, 1, false, 0x030), (.ldh, 2, false, 0x031), (.ldw, 4, false, 0x032), (.ldbs, 1, true, 0x033), (.ldhs, 2, true, 0x034),
      (.ldws, 4, true, 0x035)] : List ((CoreId → L64 → Instr) × Nat × Bool × Nat)), ∀ (c : CoreId) (w : L64) (s u p : State),
    let src (s : State) := s.resolve c 1 w.sb e.2.1
    let x := u.value c (src u) e.2.1
    let v := if e.2.2.1 = true ∧ 2 ^ (8 * e.2.1 - 1) ≤ x.v then 2 ^ 64 - 2 ^ (8 * e.2.1) + x.v else x.v
    PassesL s c e.2.2.2 8 encLoad w (fun s => [(opA s c w).use false true 8 .move (storeTag (s.value c (src s) e.2.1).tag),
      (src s).use true false e.2.1 .move Tag.bin]) u →
    (∃ cap a, (src u).place = .mem cap a) →
    u.putValue c (opA u c w) 8 ⟨v, x.tag, x.mark⟩ = .ok p →
    exec (e.1 c w) s = .next (s.finished c 8 { s := p.updateCursors c [opA u c w, src u] })) ∧
  (∀ e ∈ ([(.stb, 1, 0x038), (.sth, 2, 0x039), (.stw, 4, 0x03A)] : List ((StoreForm → Instr) × Nat × Nat)), ∀ (c : CoreId) (w : L64) (s u p : State),
    let dst (s : State) := s.resolve c 0 w.sa e.2.1
    PassesL s c e.2.2 8 encStore w (fun s => [(dst s).use false true e.2.1 .move (storeTag (s.value c (opB s c w) 8).tag),
      (opB s c w).use true false 8 .move Tag.bin]) u →
    u.putValue c (dst u) e.2.1 (u.value c (opB u c w) 8) = .ok p →
    exec (e.1 (.core c w)) s = .next (s.finished c 8 { s := p.updateCursors c [dst u, opB u c w] }))

/-- STB, STH and STW of the steward pair, while it serves, to program memory: where no page is journaled, or its segment holds the claims of
every line, its bytes are written at once, each word they touch tagged as a narrow store tags it; where a claim is missing it asks for it
and writes nothing, and with no segment it does nothing (12 R312, R313, R320; 04 R105; 02 R33). That it is made again once the claims are
granted, and that a tag code that is never stored stands for POISON, are the model's choices (log entry 139). -/
def Sys2Proof.Claims.StewardStores : Prop :=
  ∀ e ∈ ([(.stb, 1), (.sth, 2), (.stw, 4)] : List ((StoreForm → Instr) × Nat)), ∀ (addr v : Word) (tag : Tag) (s : State),
    let n := e.2
    let a := addr.toNat
    let t0 : Tag := if 6 ≤ tag.toNat ∧ tag.toNat ≤ 8 then 0 else if 9 ≤ tag.toNat ∧ tag.toNat ≤ 13 then 0xE else tag
    let plain := ∀ p ∈ mainPages a n, attrJrn (s.attr p) = false
    Claims.Serves s → s.region a = .main → a + n ≤ s.journalBase → (∀ i, i < n → s.lostAt (a + i) = false) →
    (plain ∨ (∃ g, s.writingOf 96 = some g ∧ s.unclaimed g.segno a n = []) →
      ∃ t, exec (e.1 (.steward addr v tag)) s = .next t ∧
        (∀ i, i < n → t.mem.byte (a + i) = v.extractLsb' (8 * i) 8) ∧
        (∀ b, b < a ∨ a + n ≤ b → t.mem.byte b = s.mem.byte b) ∧
        ∀ x, a / 8 ≤ x → x ≤ (a + n - 1) / 8 → let old := s.mem.tagAt (8 * x)
          t.mem.tagAt (8 * x) = if old = 6 ∨ old = 7 then 0 else if old = 0xE then 0xE else t0) ∧
    (¬ plain → s.writingOf 96 = none → exec (e.1 (.steward addr v tag)) s = .next s) ∧
    (∀ g, ¬ plain → s.writingOf 96 = some g → s.unclaimed g.segno a n ≠ [] → (∀ y, (s.yard y).claimCount g.segno < 1023) →
      ∃ t, exec (e.1 (.steward addr v tag)) s = .next t ∧ t.mem = s.mem ∧
        ∀ l ∈ s.unclaimed g.segno a n, ∃ r ∈ (t.yard (yardOf l)).claimReqs, r.line = l ∧ r.segno = g.segno)

/-- MUL and MULW leave the 128-bit product outstanding, an earlier one having landed; PRODUCT_WRITTEN and MWAIT land it in MH:ML; MFMH and
MFML deliver MH or ML as it stands and set STATUS.MEARLY where a product is outstanding (04 R106–R108). How a waiting MWAIT completes is the
model's choice (log entry 50). -/
def Sys2Proof.Claims.MultiplierResults : Prop :=
  (∀ e ∈ ([(.mul, 0x018, fun x y => BitVec.ofInt 128 (x.toInt * y.toInt)),
      (.mulw, 0x019, fun x y => BitVec.ofNat 128 (x.toNat * y.toNat))] :
      List ((CoreId → AluForm → Instr) × Nat × (Word → Word → BitVec 128))), ∀ (c : CoreId) (f : AluForm) (s u : State),
    let w := formTwo f
    let q := e.2.2 (u.value c (opA u c w) 8).w (u.value c (opB u c w) 8).w
    PassesL s c e.2.1 (formLen f) encVV w (fun s => [(opA s c w).source, (opB s c w).source]) u →
    exec (e.1 c f) s = .next (s.finished c (formLen f) { s := (u.modCore c fun k =>
      { k.landProduct with product := some (q.extractLsb' 64 64, q.extractLsb' 0 64) }).updateCursors c [opA u c w, opB u c w] })) ∧
  (∀ (c : CoreId) (s : State),
    exec (.productWritten c) s = .next (s.modCore c fun k => match k.product with
      | none => k
      | some (h, l) => { k with mh := h, ml := l, product := none })) ∧
  (∀ (c : CoreId) (f : AluForm) (s u : State), PassesL s c 0x01A (formLen f) encNone (formTwo f) (fun _ => []) u →
    exec (.mwait c f) s = .next (s.finished c (formLen f) { s := u.modCore c fun k => match k.product with
      | none => k
      | some (h, l) => { k with mh := h, ml := l, product := none } })) ∧
  (∀ e ∈ ([(.mfmh, 0x01B, Core.mh), (.mfml, 0x01C, Core.ml)] : List ((CoreId → AluForm → Instr) × Nat × (Core → Word))),
    ∀ (c : CoreId) (f : AluForm) (s u p : State),
    let w := formTwo f
    PassesL s c e.2.1 (formLen f) encD w (fun s => [(opA s c w).dest]) u →
    u.putValue c (opA u c w) 8 ⟨(e.2.2 (u.core c)).toNat, Tag.bin, none⟩ = .ok p →
    exec (e.1 c f) s = .next (s.finished c (formLen f) { s := (p.modCore c fun k =>
      if (u.core c).product.isSome then { k with status := setBit k.status 7 true } else k).updateCursors c [opA u c w] }))

/-- DIV and DIVU: the quotient to A tagged BIN, the remainder to MH, flags from the quotient with V for −2^63 by −1 (04 R99, R110);
a zero divisor raises INTEGER_DIVIDE, and under IOVE that one quotient raises INTEGER_OVERFLOW (04 R100). CAUSE.OPND 0b11 of both is the
model's choice (log entry 132). -/
def Sys2Proof.Claims.DivideResults : Prop :=
  ∀ e ∈ ([(.div, 0x020, fun x y => (BitVec.ofInt 64 (x.toInt.tdiv y.toInt), BitVec.ofInt 64 (x.toInt.tmod y.toInt),
        decide (x.toInt = -2 ^ 63 ∧ y.toInt = -1))),
      (.divu, 0x021, fun x y => (BitVec.ofNat 64 (x.toNat / y.toNat), BitVec.ofNat 64 (x.toNat % y.toNat), false))] :
      List ((CoreId → L64 → Instr) × Nat × (Word → Word → Word × Word × Bool))), ∀ (c : CoreId) (w : L64) (s u : State),
    let v := u.modCore c Core.landProduct
    let x := (v.value c (opB v c w) 8).w
    let y := (v.value c (opC v c w) 8).w
    let q := e.2.2 x y
    PassesL s c e.2.1 8 encDVV w (divUses c w) u →
    (y = 0 → exec (e.1 c w) s = .next (s.faulted c 8 ⟨13, BitVec.ofNat 16 (e.2.1 + 0x400), 3, 0⟩ v)) ∧
    (y ≠ 0 → q.2.2 = true → (v.core c).iove = true →
      exec (e.1 c w) s = .next (s.faulted c 8 ⟨12, BitVec.ofNat 16 e.2.1, 3, 0⟩ v)) ∧
    (y ≠ 0 → (q.2.2 = true → (v.core c).iove = false) →
      ∀ (p : State) (fl : Word), v.putValue c (opA v c w) 8 ⟨q.1.toNat, Tag.bin, none⟩ = .ok p →
      Claims.FlagsAfter (p.core c).flags fl (q.1, some q.2.2, none) →
      exec (e.1 c w) s = .next (s.finished c 8
        { s := (p.modCore c fun k => { k with mh := q.2.1, flags := fl }).updateCursors c [opA v c w, opB v c w, opC v c w] }))

/-- Moves, loads and stores, of a core and of the steward pair. -/
def Obligations.MovesLoadsAndStores : Prop := Claims.CoreMovesLoadsAndStores ∧ Claims.StewardStores

/-- The three-operand integer instructions, and where the integer overflow trap takes their place or that of `NEG`. -/
def Obligations.IntegerResults : Prop := Claims.IntegerThreeOperandResult ∧ Claims.IntegerOverflowTrap

/-- The two-operand integer instructions, `CMP` and `ADDI`. -/
def Obligations.OtherIntegerResults : Prop := Claims.IntegerTwoOperandResult ∧ Claims.CompareAndAddImmediate

/-- The multiplier and the divider. -/
def Obligations.MultiplyAndDivide : Prop := Claims.MultiplierResults ∧ Claims.DivideResults
/-! ## Special registers and control -/

/-- MFS delivers the special register named, tagged BIN, MH and ML once the outstanding product has landed; MTS writes it, its source read and
SYS checked first, unless the value is out of range; the one that sets CORECFG.DET waits for a deterministic slot, which DET_SLOT_RESERVED
gives, and the one that clears it empties the core's L1 caches and block buffer (02 R19–R25, Tables 2.2–2.6; 04 R108; 08 R231). That the MTS
that sets DET waits for its slot is the model's choice (log entry 28). -/
def Sys2Proof.Claims.SpecialRegisterMoves : Prop :=
  (∀ (c : CoreId) (w : L64) (s u p : State),
    let n := specNum w.sb
    let v := if n = 4 ∨ n = 5 then u.modCore c Core.landProduct else u
    PassesL s c 0x040 8 { a := .d, b := .i, c := .unused, range := fun _ => if specialNumber n then none else some (1, 6) } w
      (fun s => [(opA s c w).dest]) u →
    v.putValue c (opA v c w) 8 ⟨(v.specialRead c n.toNat).toNat, Tag.bin, none⟩ = .ok p →
    exec (.mfs c w) s = .next (s.finished c 8 { s := p.updateCursors c [opA v c w] })) ∧
  (∀ (c : CoreId) (w : L64) (s u : State),
    let n := specNum w.sa
    let v := (u.value c (opB u c w) 8).w
    let waits := n = 15 ∧ v.getLsbD 0 ∧ (u.core c).corecfg.getLsbD 0 = false ∧ (u.core c).detSlot = false
    Passes s c 0x041 8 w (({ a := .i, b := .vi, c := .unused, range := fun _ => if specialNumber n then none else some (0, 6) } : Enc).bad w)
      (guardOf w) (mtsCheck c w n.toNat) (fun s => [(opB s c w).source]) u →
    (specialRange n.toNat v = true → exec (.mts c w) s = .next (s.faulted c 8 ⟨4, 0xA, 1, (u.core c).pcc.cursor⟩ u)) ∧
    (specialRange n.toNat v = false → waits → exec (.mts c w) s = .next (s.waiting c 0x041 8 w false
      (u.modCore c fun k => { k with wait := some .detSlot }))) ∧
    (specialRange n.toNat v = false → ¬ waits →
      let x := u.modCore c fun k => k.specialWrite n.toNat v
      let clears := n = 15 ∧ (u.core c).corecfg.getLsbD 0 ∧ v.getLsbD 0 = false
      let y : State := if clears then { x.modCore c (fun k => { k with block := none }) with
        l1d := x.l1d.filter (·.1 != c), l1i := x.l1i.filter (·.1 != c) } else x
      exec (.mts c w) s = .next (s.finished c 8 { s := y.updateCursors c [opB u c w] }))) ∧
  (∀ (c : CoreId) (s : State), (s.core c).wait = some .detSlot →
    exec (.detSlotReserved c) s = .next (s.modCore c fun k => { k with wait := none, detSlot := true }))

/-- What a read of a special register delivers, what a write leaves in it, and that a write changes no other, but for STATUS.DET, which
copies CORECFG.DET, and for the product that a write of MH or ML lands first: STATUS takes its RW fields, clears MEARLY on 1 and keeps every
other bit, DET and DUP among them; reserved bits of FLAGS, FPCTL, ZONE, CURRENCY, CAUSE and CORECFG read zero; and the read-only numbers
change nothing (02 R22, R24, Tables 2.2–2.6; 04 R106). -/
def Sys2Proof.Claims.SpecialRegisterFields : Prop :=
  ∀ (s : State) (c : CoreId) (n : Nat) (v : Word),
    let t := s.modCore c fun k => k.specialWrite n v
    let k := s.core c
    let bit (r i : Nat) : Bool := (s.specialRead c r).getLsbD i
    (∀ i, bit 0 i = if i = 8 then k.corecfg.getLsbD 0 else k.status.getLsbD i) ∧
    [1, 2, 3, 4, 5, 6, 7].map (s.specialRead c) = [k.flags, k.fpctl, k.resume, k.mh, k.ml, k.zone, k.currency] ∧
    [8, 9, 10, 13, 14, 15, 18].map (s.specialRead c) =
      [BitVec.ofNat 64 k.depth.val, k.cause, k.faddr, s.timer, k.tcmp, k.corecfg, k.rid] ∧
    (∀ i, i < 64 → bit 16 i = if i < 48 then k.segno.getLsbD i else decide (i = 63) && k.jopen) ∧
    (∀ i, bit 17 i = if i < 16 then k.sidx.getLsbD i else if i < 21 then k.slot.getLsbD (i - 16) else false) ∧
    (∀ m, m ≠ n → m ≠ 0 → ¬ ((n = 4 ∧ m = 5) ∨ (n = 5 ∧ m = 4)) → t.specialRead c m = s.specialRead c m) ∧
    (n ≠ 0 → ∀ i, (t.specialRead c 0).getLsbD i = if n = 15 ∧ i = 8 then v.getLsbD 0 else bit 0 i) ∧
    (n ∈ [1, 2, 3, 6, 7, 9, 10, 14, 15] → t.specialRead c n = v &&& (match n with
      | 1 => 0x3F | 2 => 0x3FFF | 6 => 0xF | 7 => 0x7FFFFFFFFFF | 9 => 0xFFFFFF | 15 => 0x1F | _ => 0xFFFFFFFFFFFFFFFF)) ∧
    (n = 4 ∨ n = 5 → t.specialRead c n = v) ∧
    (n = 0 → ∀ i, (t.specialRead c 0).getLsbD i =
      if i < 7 then v.getLsbD i else if i = 7 then bit 0 7 && !v.getLsbD 7 else bit 0 i) ∧
    (n ∈ [8, 11, 12, 13, 16, 17, 18] → t = s)

/-- Without SYS in C15, MTS of a register marked for SYS, or of STATUS where a field so marked would change, and CMTS raise
CAPABILITY_FAULT 5 and change nothing (02 R21, R22, Tables 2.2, 2.3). That CAUSE.OPND is 0b11 and FADDR 0 is the model's choice (log entry
17). -/
def Sys2Proof.Claims.SpecialRegisterAuthority : Prop :=
  (∀ (c : CoreId) (w : L64) (s : State),
    let n := specNum w.sa
    let u := s.fetched c 8
    let v := (u.value c (opB u c w) 8).w
    Claims.Reaches s c 0x041 8 w
      (({ a := .i, b := .vi, c := .unused, range := fun _ => if specialNumber n then none else some (0, 6) } : Enc).bad w) →
    u.rank6 c [(opB u c w).source] = none → ¬ Claims.HasSys (u.core c) →
    n = 9 ∨ n = 10 ∨ n = 14 ∨ n = 15 ∨ (n = 0 ∧ ∃ i, i ∈ [0, 1, 2, 3, 6] ∧ v.getLsbD i ≠ (u.core c).status.getLsbD i) →
    Claims.Faults (.mts c w) s c ⟨6, 5, 3, 0⟩) ∧
  ∀ (c : CoreId) (w : L64) (s : State),
    let n := specNum w.sa
    Claims.Reaches s c 0x291 8 w
      (({ a := .i, b := .c, c := .unused, range := fun _ => if n = 11 ∨ n = 12 then none else some (0, 6) } : Enc).bad w) →
    ¬ Claims.HasSys (s.fetched c 8 |>.core c) → Claims.Faults (.cmts c w) s c ⟨6, 5, 3, 0⟩

/-- A branch resolves its predictor counter and hands its delay slot the target, PCC with bit 0 of the cursor zero, or no target where it is
not taken; the S16 branch is taken when P[p] XOR invert is 1 (03 R60, R65, R84, R88; 08 R222). BRL and JMPL write a link when taken, JMP and
JMPL check their target first (03 R85, R89). A target outside the representable window, which leaves PCC invalid, is the model's choice (log
entry 130). -/
def Sys2Proof.Claims.BranchesAndJumps : Prop :=
  (∀ (c : CoreId) (w : L64) (s u : State),
    let k := u.core c
    let taken := k.getP w.gp != w.gi
    let t := k.pcc.withCursor ((k.pcc.cursor.toNat + (w.sa ++ w.sb : BitVec 32).toInt * 2) / 2 * 2)
    let v := u.modCore c fun k => k.train taken
    (Passes s c 0x2C0 8 w (encBranch.bad w) (fun _ => true) (fun _ => none) (fun _ => []) u →
      exec (.br c w) s = .next (s.finished c 8
        { s := v, flow := .jump (if taken then some t else none) (!taken && w.sc.getLsbD 15) })) ∧
    (Passes s c 0x2C1 8 w (encBranch.bad w) (fun _ => true) (fun _ => none) (fun _ => []) u →
      exec (.brl c w) s = .next (s.finished c 8
      { s := if taken then v.modCore c fun k => k.setC 14 (v.link c) else v
        flow := .jump (if taken then some t else none) (!taken && w.sc.getLsbD 15) }))) ∧
  (∀ (c : CoreId) (w : L64) (s u : State),
    let k := u.core c
    let taken := guardOf w k
    let t := k.getC (specReg w.sa)
    let dest : Option Cap := if taken then some t.even else none
    let check (s : State) := if guardOf w (s.core c) then jumpFault ((s.core c).getC (specReg w.sa)) else none
    (Passes s c 0x2C2 8 w (({ a := .c, b := .unused, c := .raw, zero := branchZero, transfer := true } : Enc).bad w) (fun _ => true)
        check (fun _ => []) u →
      exec (.jmp c w) s = .next (s.finished c 8 { s := u, flow := .jump dest (!taken && w.sc.getLsbD 15) })) ∧
    (Passes s c 0x2C3 8 w (({ a := .c, b := .c, c := .raw, zero := branchZero, transfer := true } : Enc).bad w) (fun _ => true)
        check (fun _ => []) u →
      exec (.jmpl c w) s = .next (s.finished c 8
        { s := if taken then u.modCore c fun k => k.setC (specReg w.sb) (u.link c) else u
          flow := .jump dest (!taken && w.sc.getLsbD 15) }))) ∧
  (∀ (c : CoreId) (invert : Bool) (p : BitVec 3) (simm : BitVec 8) (s u : State),
    let k := u.core c
    let taken := k.getP p != invert
    Passes s c 0x403 2 (plainL 0 0 0) (fun slot => if slot then some (3, 4, 5) else none) (fun _ => true) (fun _ => none) (fun _ => []) u →
    exec (.shortBranch c invert p simm) s = .next (s.finished c 2
      { s := u.modCore c fun k => k.train taken
        flow := .jump (if taken then some (k.pcc.withCursor ((k.pcc.cursor.toNat + simm.toInt * 2) / 2 * 2)) else none) false }))

/-- How an instruction that is over leaves PCC: a transfer goes on at the next address with its slot pending; an instruction in a delay
slot goes on at the transfer's target, or at the next address when the transfer was not taken; any other at the next address
(03 R84, R87, R88). No other core and no byte of memory changes with it. -/
def Sys2Proof.Claims.SequenceAndDelaySlot : Prop :=
  ∀ (s v : State) (c : CoreId) (len : Nat), v.core c = (s.fetched c len).core c →
    let k := (s.core c).landFp
    let next := k.pcc.withCursor (k.pcc.cursor.toNat + len)
    (∀ t a, let x := (s.finished c len { s := v, flow := .jump t a }).core c
      x.pcc = next.even ∧ x.delay = some ⟨t, a, false, 0⟩) ∧
    (k.delay = none → let x := (s.finished c len { s := v }).core c
      x.pcc = next.even ∧ x.delay = none ∧ x.wait = none ∧ x.held = none ∧ x.banks[k.depth].g = k.bank.g ∧ x.depth = k.depth) ∧
    (∀ d, k.delay = some d → d.check = false → let x := (s.finished c len { s := v }).core c
      x.pcc = (d.target.getD next).even ∧ x.delay = none ∧ x.banks[k.depth].g = k.bank.g ∧ x.depth = k.depth) ∧
    (∀ f, let t := s.finished c len { s := v, flow := f }
      t.mem = v.mem ∧ ∀ d, d ≠ c → t.core d = v.core d)

/-- Predicates, fences and NOP: PCMP and its S16 form compare, PLOG looks its two predicates up, PFLG tests FLAGS; IFLUSH forgets what
was fetched ahead, the lines of the L1 I-cache and the branch counters; FENCE performs every buffered store; NOP does nothing (03 R66, R95; 04 R463, Tables 4.11 and
4.12; 08 R222, R227). -/
def Obligations.PredicatesAndFences : Prop :=
  (∀ (c : CoreId) (w : L64) (s u : State),
    let f := specImm w.sa
    let x := (u.value c (opB u c w) 8).w
    let y := (u.value c (opC u c w) 8).w
    let lt := if f.testBit 3 then decide (x.toNat < y.toNat) else decide (x.toInt < y.toInt)
    let r := match f % 8 with
      | 0 => x == y | 1 => x != y | 2 => lt | 3 => !lt | 4 => lt || x == y | _ => !(lt || x == y)
    PassesL s c 0x2C8 8 { a := .pf, b := .vi, c := .vi, zero := fun _ => f / 16 == 0, zeroIn := 0
                          range := fun _ => if 6 ≤ f % 8 then some (0, 0xA) else none } w
      (fun s => [(opB s c w).source, (opC s c w).source]) u →
    exec (.pcmp c w) s = .next (s.finished c 8
      { s := (u.modCore c fun k => k.setP ((specReg w.sa).setWidth 3) r).updateCursors c [opB u c w, opC u c w] })) ∧
  (∀ (c : CoreId) (pd cond : BitVec 3) (gs : BitVec 4) (s u : State),
    let x := ((u.core c).getG gs).val.toInt
    let r := match cond.toNat with
      | 0 => decide (x = 0) | 1 => decide (x ≠ 0) | 2 => decide (x < 0) | 3 => decide (0 ≤ x) | 4 => decide (x ≤ 0)
      | _ => decide (0 < x)
    let w := plainL 0 (regSpec gs) 0
    cond.toNat < 6 →
    Passes s c 0x402 2 w (fun _ => none) (fun _ => true) (fun s => s.accessFault c [(opB s c w).source]) (fun s => [(opB s c w).source]) u →
    exec (.shortPcmp c pd cond gs 0) s = .next (s.finished c 2 { s := u.modCore c fun k => k.setP pd r })) ∧
  (∀ (c : CoreId) (w : L64) (s u : State),
    let f := specImm w.sa
    PassesL s c 0x2C9 8 { a := .pf, b := .p, c := .p, zero := fun _ => f / 16 == 0, zeroIn := 0 } w (fun _ => []) u →
    let i := ((u.core c).getP ((specReg w.sb).setWidth 3)).toNat * 2 + ((u.core c).getP ((specReg w.sc).setWidth 3)).toNat
    exec (.plog c w) s = .next (s.finished c 8
      { s := u.modCore c fun k => k.setP ((specReg w.sa).setWidth 3) (f.testBit i) })) ∧
  (∀ (c : CoreId) (w : L64) (s u : State),
    let f := specImm w.sa
    PassesL s c 0x2CA 8 { a := .pf, b := .unused, c := .unused, zero := fun _ => f / 32 == 0, zeroIn := 0 } w (fun _ => []) u →
    let r := flagCond (u.core c).flags (f % 16) != f.testBit 4
    exec (.pflg c w) s = .next (s.finished c 8 { s := u.modCore c fun k => k.setP ((specReg w.sa).setWidth 3) r })) ∧
  (∀ (c : CoreId) (w : L64) (s u : State),
    (PassesL s c 0x2F8 8 encNone w (fun _ => []) u → exec (.nop c w) s = .next (s.finished c 8 { s := u })) ∧
    (PassesL s c 0x2D0 8 encNone w (fun _ => []) u → exec (.iflush c w) s = .next (s.finished c 8
      { s := ({ u with l1i := u.l1i.filter (·.1 != c) } : State).modCore c fun k =>
          { k with block := none, predictor := [], ahead := [] } })) ∧
    (PassesL s c 0x2D1 8 encNone w (fun _ => []) u → exec (.fence c w) s = .next (s.finished c 8 { s := u.drainAll c })))

/-- An unassigned opcode or S16 operation raises UNDEFINED_INSTRUCTION at its own address with the cause of its form, whatever its
fields and guard hold, and changes nothing else: once it can be fetched, what it leaves is that entry (03 R62, R82; 07 Table 7.1). -/
def Sys2Proof.Claims.UnassignedOpcodeTrap : Prop :=
  (∀ (c : CoreId) (op : BitVec 6) (rd rs : BitVec 4) (rest : List (BitVec 16)), op = 0 ∨ 0x17 ≤ op.toNat →
    decodeWords c ((0#2 ++ op ++ rd ++ rs) :: rest) = some (.unassignedOpcode c (.s16 op rd rs), rest)) ∧
  ∀ (c : CoreId) (u : Unassigned) (s : State),
    let len := match u with
      | .s16 _ _ _ => 2
      | .l64 _ _ => 8
    let code : BitVec 16 := match u with
      | .s16 _ _ _ => 1
      | .l64 opc _ => if opc = 0x3FF then 3 else 2
    let l := s.modCore c Core.landFp
    s.canIssue c = true → (s.core c).held = none → (s.core c).raising = false → ((l.core c).delay.map (·.annul)).getD false = false →
    (l.core c).debugFault = none → l.fetchFault c len = none →
    exec (.unassignedOpcode c u) s =
      .next ((l.raise c len ⟨3, code, 3, (l.core c).pcc.cursor⟩).noteAhead l c len true false)

/-- TRAP n is over like any instruction and then enters vector 32 + n; CAUSE.CODE, OPND and FADDR say nothing of an operand
(07 R188, Table 7.2 rank 10). -/
def Sys2Proof.Claims.TrapEntersItsVector : Prop :=
  ∀ (c : CoreId) (w : L64) (s u : State),
    let n := specNum w.sa
    PassesL s c 0x2C5 8 { a := .i, b := .unused, c := .unused, transfer := true
                          range := fun _ => if 0 ≤ n ∧ n ≤ 31 then none else some (0, 0xA) } w (fun _ => []) u →
    exec (.trap c w) s = .next (s.finished c 8 { s := u, after := some ⟨Fin.ofNat 64 (32 + n.toNat), 0, 3, 0⟩ })

/-- An exception at depth d < 3: the shadow slots of bank d + 1 take PCC, STATUS, the predicates, RESUME, CAUSE, FADDR, MH and ML as they
stood, the outstanding results landed; CAUSE and FADDR take the new values; PCC becomes HPCC at 0x20 times the vector, C15 HDCC, RESUME 0,
STATUS.IE 0, and depth d + 1 is current. At depth 3 the core stops for good (07 R195, Table 7.4; R209). That S_TPCC keeps its value where BDS
= 0 is the model's choice (log entry 22). -/
def Sys2Proof.Claims.ExceptionEntry : Prop :=
  ∀ (k : Core) (e : ExcOperand),
    (∀ h : k.depth.val < 3, k.delay = none →
      let d : Fin 4 := ⟨k.depth.val + 1, by omega⟩
      let l := k.landProduct.landFp
      let x := k.takeExc e 0
      x.depth = d ∧ x.shadows[d].pcc = l.pcc ∧ x.shadows[d].status = setBit l.statusRead 6 false ∧ x.shadows[d].pred = l.bank.p ∧
      x.shadows[d].resume = k.resume ∧ x.shadows[d].cause = k.cause ∧ x.shadows[d].faddr = k.faddr ∧
      x.shadows[d].mh = l.mh ∧ x.shadows[d].ml = l.ml ∧ x.shadows[d].skip = 0 ∧
      x.cause.toNat = e.code.toNat + e.vec.val * 0x10000 + e.opnd.toNat * 0x400000 ∧ x.faddr = e.faddr ∧
      x.pcc = k.hpcc.withCursor (0x20 * e.vec.val : Nat) ∧ x.getC 15 = k.hdcc ∧ x.resume = 0 ∧ x.status.getLsbD 0 = false ∧
      x.resv = none ∧ x.product = none ∧ x.fpq = [] ∧ x.banks[k.depth] = l.banks[k.depth]) ∧
    (k.depth.val = 3 → ∀ slot, k.takeExc e slot = { k with run := .fatal e 1 })

/-- An exception of ranks 1 to 9 in a delay slot: the shadow slots of bank d + 1 take the slot's own PCC with BDS set, and as the saved
target that of the transfer, or the instruction that follows the slot when it is not taken; no slot stays pending (07 R195, R198, R199,
Table 7.5). -/
def Sys2Proof.Claims.EntryFromADelaySlot : Prop :=
  ∀ (s : State) (c : CoreId) (len : Nat) (e : ExcOperand) (d : Delay),
    let k := s.core c
    k.depth.val < 3 → k.delay = some d → len ≠ 0 →
    let x := (s.raise c len e).core c
    let sh := x.shadows[x.depth]
    let l := k.landProduct.landFp
    x.depth.val = k.depth.val + 1 ∧ x.delay = none ∧ sh.pcc = l.pcc ∧ sh.status = setBit l.statusRead 6 true ∧
      sh.tpcc = d.target.getD (l.pcc.withCursor (l.pcc.cursor.toNat + len)) ∧ x.status.getLsbD 6 = false ∧ sh.skip = 0 ∧
      x.pcc = k.hpcc.withCursor (0x20 * e.vec.val : Nat)

/-- RETX undoes an entry: straight after an exception taken at depth d with no delay slot pending, where S_PCC passes its checks, it
brings back PCC, STATUS, the predicates, RESUME, CAUSE, FADDR, MH, ML and the depth, with every result landed (07 R205). -/
def Sys2Proof.Claims.ReturnRestoresTheContext : Prop :=
  ∀ (c : CoreId) (w : L64) (s u : State) (k : Core) (e : ExcOperand),
    PassesL s c 0x2C4 8 { a := .unused, b := .unused, c := .unused, transfer := true } w (fun _ => []) u →
    u.core c = k.takeExc e 0 → k.depth.val < 3 → k.delay = none → targetCause k.pcc = none →
    k.status.getLsbD 6 = false → k.status.getLsbD 8 = k.corecfg.getLsbD 0 → k.pcc.cursor.getLsbD 0 = false →
    let l := k.landProduct.landFp
    exec (.retx c w) s = .next ((u.modCore c fun x => x.restore x.depth k.depth).noteAhead (s.fetched c 8) c 8 true
      true) ∧
    let x := (u.core c).restore (u.core c).depth k.depth
    x.depth = k.depth ∧ x.pcc = k.pcc ∧ x.status = k.status ∧ x.bank.p = k.bank.p ∧ x.resume = k.resume ∧ x.cause = k.cause ∧
      x.faddr = k.faddr ∧ x.mh = l.mh ∧ x.ml = l.ml ∧ x.bank.g = l.bank.g ∧ x.bank.c = k.bank.c ∧ x.delay = none

/-- RETX where a slot is pending or one is to be skipped: with S_STATUS.BDS and SKIP 0b00 it goes on at S_PCC with that slot to be followed by
S_TPCC; with SKIP 0b01 or 0b10 at S_PCC moved on by 2 or 8 bytes, or with BDS at S_TPCC and no slot; under SKIP it restores RESUME 0. The
instruction re-executed in the slot, once over, is followed by S_TPCC, or by the CAPABILITY_FAULT of a target that fails its checks, at depth
d − 1 (07 R205, R206, R208). That this fault's FADDR is the target's cursor and its OPND 0b11 is the model's choice (log entry 17). -/
def Sys2Proof.Claims.ReturnIntoAndPastASlot : Prop :=
  (∀ (c : CoreId) (w : L64) (s u : State), let k := u.core c
    let h := k.shadows[k.depth]
    let bds := h.status.getLsbD 6
    let on : Cap := h.pcc.withCursor (h.pcc.cursor.toNat + if h.skip = 1 then 2 else 8)
    let dest := if h.skip = 0 then h.pcc else if bds then h.tpcc else on
    PassesL s c 0x2C4 8 { a := .unused, b := .unused, c := .unused, transfer := true } w (fun _ => []) u →
    k.depth ≠ 0 → h.skip ≠ 3 → targetCause dest.even = none →
    ∃ t, exec (.retx c w) s = .next t ∧ t.mem = u.mem ∧
      let x := t.core c
      x.depth.val + 1 = k.depth.val ∧ x.pcc = dest.even ∧ x.status = setBit h.status 6 false ∧ x.cause = h.cause ∧ x.faddr = h.faddr ∧
      x.mh = h.mh ∧ x.ml = h.ml ∧ x.bank.p = h.pred ∧ x.resume = (if h.skip = 0 then h.resume else 0) ∧ x.shadows[k.depth].skip = 0 ∧
      x.delay = if h.skip = 0 ∧ bds = true then some ⟨some h.tpcc.even, false, true, 0⟩ else none) ∧
  (∀ (s : State) (c : CoreId) (len : Nat) (q : Cap) (a : Bool) (b : Nat),
    let k := s.core c
    k.delay = some ⟨some q, a, true, b⟩ → k.depth.val < 3 →
    let x := (s.complete c len { s }).core c
    (targetCause q = none → x.pcc = q.even ∧ x.delay = none ∧ x.depth = k.depth) ∧
    (∀ code, targetCause q = some code → x.depth.val = k.depth.val + 1 ∧ x.delay = none ∧ x.faddr = q.cursor ∧
      x.shadows[x.depth].pcc = q.even ∧ x.cause.toNat = code + 6 * 0x10000 + 3 * 0x400000))

/-- RETX at depth 0, or with SKIP 0b11, raises OPERAND_FORM; a saved capability that fails its checks, or that SKIP has moved where it cannot
be represented, raises CAPABILITY_FAULT; each at RETX's own depth with nothing restored (07 R205, R206, R208). The FADDR of that fault, its
OPND, and the cause of the unrepresentable one are the model's choices (log entries 17, 24). -/
def Sys2Proof.Claims.ReturnFaults : Prop :=
  ∀ (c : CoreId) (w : L64) (s u : State),
    let k := u.core c
    let h := k.shadows[k.depth]
    PassesL s c 0x2C4 8 { a := .unused, b := .unused, c := .unused, transfer := true } w (fun _ => []) u →
    (k.depth = 0 ∨ h.skip = 3 → exec (.retx c w) s = .next (s.faulted c 8 ⟨4, 0xB, 3, k.pcc.cursor⟩ u)) ∧
    (k.depth ≠ 0 → h.skip ≠ 3 → ∀ code, targetCause h.target.even = some code →
      exec (.retx c w) s = .next (s.faulted c 8 ⟨6, BitVec.ofNat 16 code, 3, h.target.cursor⟩ u))

/-- Special registers: who reads and writes them, what each write keeps, and what lack of SYS refuses. -/
def Obligations.SpecialRegisters : Prop := Claims.SpecialRegisterMoves ∧ Claims.SpecialRegisterFields ∧ Claims.SpecialRegisterAuthority

/-- Branches, jumps and the delay slot. -/
def Obligations.ControlTransfers : Prop := Claims.BranchesAndJumps ∧ Claims.SequenceAndDelaySlot

/-- `TRAP`, unassigned opcodes, and what taking an exception saves and where it goes. -/
def Obligations.ExceptionsTaken : Prop := Claims.TrapEntersItsVector ∧ Claims.UnassignedOpcodeTrap ∧ Claims.ExceptionEntry ∧ Claims.EntryFromADelaySlot

/-- `RETX`: the context it restores, the slots it returns into and skips, and where it faults. -/
def Obligations.ReturnFromException : Prop := Claims.ReturnRestoresTheContext ∧ Claims.ReturnIntoAndPastASlot ∧ Claims.ReturnFaults
/-! ## Capabilities, tags and atomics -/

/-- The reads of a capability deliver one of its fields tagged BIN, CGETT telling a top of 2^64 by FLAGS.C; CEQ compares all 129 bits; CMOV
copies; CMFS and CMTS move the special capabilities (02 R16, R20, R21, R464, Table 2.16). The place of CMTS's SYS check among the ranks is the
model's choice (log entry 21). -/
def Obligations.CapabilityReadsAndMoves : Prop :=
  (∀ e ∈ ([(.cgeta, 0x283, Cap.cursor), (.cgetb, 0x284, fun k => BitVec.ofInt 64 k.base),
        (.cgetp, 0x286, fun k => k.high &&& 0xFFFF000000000000)] : List ((CoreId → L64 → Instr) × Nat × (Cap → Word))),
    ∀ (c : CoreId) (w : L64) (s u p : State),
    PassesL s c e.2.1 8 { a := .d, b := .c, c := .unused } w (fun s => [(opA s c w).dest]) u →
    u.putValue c (opA u c w) 8 ⟨(e.2.2 ((u.core c).getC (specReg w.sb))).toNat, Tag.bin, none⟩ = .ok p →
    exec (e.1 c w) s = .next (s.finished c 8 { s := p.updateCursors c [opA u c w] })) ∧
  (∀ (c : CoreId) (w : L64) (s u p : State),
    let top := ((u.core c).getC (specReg w.sb)).top
    PassesL s c 0x285 8 { a := .d, b := .c, c := .unused } w (fun s => [(opA s c w).dest]) u →
    u.putValue c (opA u c w) 8 ⟨(BitVec.ofInt 64 top).toNat, Tag.bin, none⟩ = .ok p →
    exec (.cgett c w) s = .next (s.finished c 8 { s := (p.modCore c fun k =>
      { k with flags := setBit k.flags 3 (decide (top = 2 ^ 64)) }).updateCursors c [opA u c w] })) ∧
  (∀ (c : CoreId) (w : L64) (s u : State),
    let x := (u.core c).getC (specReg w.sb)
    let y := (u.core c).getC (specReg w.sc)
    (PassesL s c 0x292 8 { a := .p, b := .c, c := .c } w (fun _ => []) u →
      exec (.ceq c w) s = .next (s.finished c 8
        { s := u.modCore c fun k => k.setP ((specReg w.sa).setWidth 3) (decide (x = y)) })) ∧
    (PassesL s c 0x282 8 { a := .c, b := .c, c := .unused, cdest := true } w (fun _ => []) u →
      exec (.cmov c w) s = .next (s.finished c 8 { s := u.modCore c fun k => k.setC (specReg w.sa) x })) ∧
    (let n := specNum w.sb
     let v := if n = 11 then (u.core c).hpcc else if n = 12 then (u.core c).hdcc else (u.core c).pcc
     PassesL s c 0x290 8 { a := .c, b := .i, c := .unused, cdest := true
                           range := fun _ => if n = 11 ∨ n = 12 ∨ n = 19 then none else some (1, 6) } w (fun _ => []) u →
      exec (.cmfs c w) s = .next (s.finished c 8 { s := u.modCore c fun k => k.setC (specReg w.sa) v })) ∧
    (let n := specNum w.sa
     Passes s c 0x291 8 w (({ a := .i, b := .c, c := .unused, range := fun _ => if n = 11 ∨ n = 12 then none else some (0, 6) } : Enc).bad w)
        (guardOf w) (fun s => if (s.core c).sys then none else some ⟨6, 5, 3, 0⟩) (fun _ => []) u →
      exec (.cmts c w) s = .next (s.finished c 8
        { s := u.modCore c fun k => if n = 11 then { k with hpcc := x } else { k with hdcc := x } })))

/-- What a derivation makes of its source and the integer C, none where it is refused (02 R40, R464, Table 2.12): a moved cursor; bounds
from the cursor and a length, rounded out for CSETB and not at all for CSETBX, never past the source's; permissions taken away; a key
under SYS. -/
def Sys2Proof.Claims.derivations : List ((CoreId → L64 → Instr) × Nat × (Cap → Word → Option Cap)) :=
  let bounds (exact : Bool) (k : Cap) (v : Word) : Option Cap :=
    let lo : Int := k.cursor.toNat
    let hi : Int := lo + v.toNat
    let e := boundsExp lo hi
    let nb := lo / 2 ^ e * 2 ^ e
    let nt := ceilShift hi e * 2 ^ e
    if k.base ≤ nb ∧ nt ≤ k.top ∧ (exact = true → nb = lo ∧ nt = hi) then some (k.withBounds e nb nt) else none
  [(.cseta, 0x287, fun k v => some (k.withCursor v.toNat)), (.cinc, 0x288, fun k v => some (k.withCursor (k.cursor.toNat + v.toInt))),
   (.csetb, 0x289, bounds false), (.csetbx, 0x28A, bounds true),
   (.cperm, 0x28C, fun k v => some { k with high := k.high &&& (v ||| 0x00FFFFFFFFFFFFFF) }),
   (.ckey, 0x28D, fun k v => if k.has .sys ∧ v.toNat ≤ 15 then some { k with high := setField k.high 52 4 v.toNat } else none)]

/-- CSETA, CINC, CSETB, CSETBX, CPERM, CKEY, CNARROW, CSEAL and CUNSEAL write the derived capability to A; a derivation that is refused raises
CAPABILITY_FAULT 0x0006 for the operand that refuses it, or OPERAND_FORM for a key above 15 (02 R40, R41, R464, R465). That a refusal names
operand 1 or 2 with FADDR 0 is the model's choice (log entry 26), and so is that CKEY's range is checked before SYS (25) and what is made of
sealed and invalid sources (122). -/
def Sys2Proof.Claims.CapabilityDerivations : Prop :=
  (∀ e ∈ Claims.derivations, ∀ (c : CoreId) (w : L64) (s u : State),
    let k := (u.core c).getC (specReg w.sb)
    let v := (u.value c (opC u c w) 8).w
    PassesL s c e.2.1 8 { a := .c, b := .c, c := .vi, cdest := true } w
      (fun s => [authUse 1 (capOf s c w.sb) false, (opC s c w).source]) u →
    (∀ q, e.2.2 k v = some q → exec (e.1 c w) s = .next (s.finished c 8
      { s := (u.modCore c fun x => x.setC (specReg w.sa) q).updateCursors c [opC u c w] })) ∧
    (e.2.2 k v = none → exec (e.1 c w) s = .next (s.faulted c 8
      (if e.1 c w = .ckey c w ∧ 15 < v.toNat then ⟨4, 0xA, 2, (u.core c).pcc.cursor⟩ else ⟨6, 6, 1, 0⟩) u))) ∧
  (∀ (c : CoreId) (w : L64) (s u : State),
    let k := (u.core c).getC (specReg w.sb)
    let len := ((u.core c).getG (specReg w.sc)).val.toNat
    let e := boundsExp k.cursor.toNat (k.cursor.toNat + len)
    let nb := ceilShift k.cursor.toNat e * 2 ^ e
    let nt := (k.cursor.toNat + len : Int) / 2 ^ e * 2 ^ e
    let q := { (k.withBounds e nb nt) with cursor := BitVec.ofInt 64 (max (k.cursor.toNat : Int) nb) }
    PassesL s c 0x28B 8 { a := .c, b := .c, c := .g, cdest := true } w
      (fun s => [authUse 1 (capOf s c w.sb) false, { n := 2, regs := [(specReg w.sc, .bin)] }]) u →
    (k.base ≤ k.cursor.toNat ∧ (k.cursor.toNat + len : Int) ≤ k.top → exec (.cnarrow c w) s = .next (s.finished c 8
      { s := (u.modCore c fun x => x.setC (specReg w.sa) q).modCore c fun x =>
          x.setG (specReg w.sc) (BitVec.ofInt 64 (len - (nt - nb))) Tag.bin })) ∧
    (¬ (k.base ≤ k.cursor.toNat ∧ (k.cursor.toNat + len : Int) ≤ k.top) →
      exec (.cnarrow c w) s = .next (s.faulted c 8 ⟨6, 6, 1, 0⟩ u))) ∧
  (∀ (c : CoreId) (w : L64) (s u : State),
    let k := (u.core c).getC (specReg w.sb)
    let q := (u.core c).getC (specReg w.sc)
    let n := q.cursor.toNat
    let within := q.has .seal = true ∧ q.base ≤ n ∧ (n : Int) < q.top
    (PassesL s c 0x28E 8 { a := .c, b := .c, c := .c, cdest := true } w
        (fun s => [authUse 1 (capOf s c w.sb) false, authUse 2 (capOf s c w.sc) false]) u →
      (within ∧ 1 ≤ n ∧ n ≤ 15 → exec (.cseal c w) s = .next (s.finished c 8
        { s := u.modCore c fun x => x.setC (specReg w.sa) { k with high := setField k.high 48 4 n } })) ∧
      (¬ (within ∧ 1 ≤ n ∧ n ≤ 15) → exec (.cseal c w) s = .next (s.faulted c 8 ⟨6, 6, 2, 0⟩ u))) ∧
    (PassesL s c 0x28F 8 { a := .c, b := .c, c := .c, cdest := true } w
        (fun s => [authUse 1 (capOf s c w.sb) true, authUse 2 (capOf s c w.sc) false]) u →
      (within ∧ n = k.otype.toNat → exec (.cunseal c w) s = .next (s.finished c 8
        { s := u.modCore c fun x => x.setC (specReg w.sa) { k with high := setField k.high 48 4 0 } })) ∧
      (¬ (within ∧ n = k.otype.toNat) → exec (.cunseal c w) s = .next (s.faulted c 8 ⟨6, 6, 2, 0⟩ u))))

/-- A derivation never gains authority: its validity, bounds and permissions lie within those of its source (02 R40, Table 2.12). -/
def Sys2Proof.Claims.DerivationsAreMonotone : Prop :=
  ∀ e ∈ Claims.derivations, ∀ (k q : Cap) (v : Word), e.2.2 k v = some q → q.valid = true →
    k.valid = true ∧ k.base ≤ q.base ∧ q.top ≤ k.top ∧ ∀ p : Perm, q.has p = true → k.has p = true

/-- CLD loads the 16 bytes of a tagged pair as a valid capability; CST stores one with tags CAPL and CAPH where it is valid and BIN where it
is not; TAGGET delivers the stored tag; TAGSET and TAGCODE retag the words of their range (02 R17, R34, R466, Tables 2.8 and 2.10; 03 R97).
Which checks TAGSET and TAGCODE make of their range (log entries 27, 123) and which pair CLD names (124) are the model's choices. -/
def Sys2Proof.Claims.CapabilityMemoryAndTags : Prop :=
  (∀ (c : CoreId) (w : L64) (s u : State),
    let src (s : State) := s.resolve c 1 w.sb 16
    let v := (u.value c (src u) 16).v
    PassesL s c 0x280 8 { a := .c, b := .m, c := .unused, cdest := true } w (fun s =>
      [((src s).use true false 16 .cap Tag.bin).onMem fun m => { m with perms := [.lc], align := some (16, 2) }]) u →
    exec (.cld c w) s = .next (s.finished c 8 { s := (u.modCore c fun k =>
      k.setC (specReg w.sa) ⟨BitVec.ofNat 64 v, BitVec.ofNat 64 (v / 2 ^ 64), true⟩).updateCursors c [src u] })) ∧
  (∀ (c : CoreId) (w : L64) (s u p : State) (cap : Cap) (a : Int),
    let dst (s : State) := s.resolve c 0 w.sa 16
    let tags (k : Cap) : List Tag := if k.valid then [0x6, 0x7] else [0x0, 0x0]
    let k := (u.core c).getC (specReg w.sb)
    PassesL s c 0x281 8 { a := .w, b := .c, c := .unused } w (fun s =>
      [((dst s).use false true 16 .move Tag.bin).onMem fun m =>
        { m with perms := [.sc], align := some (16, 2), wtags := tags (capOf s c w.sb) }]) u →
    (dst u).place = .mem cap a →
    u.writeMem c 0 ⟨a.toNat, toLe 8 k.cursor.toNat ++ toLe 8 k.high.toNat, tags k⟩ true = .ok p →
    exec (.cst c w) s = .next (s.finished c 8 { s := p.updateCursors c [dst u] })) ∧
  (∀ (c : CoreId) (w : L64) (s u p : State) (cap : Cap) (a : Int),
    PassesL s c 0x298 8 { a := .d, b := .m, c := .unused } w (fun s =>
      [(opA s c w).dest, ((opB s c w).use true false 8 .tag Tag.bin).onMem fun m => { m with align := some (8, 4), plain := false }]) u →
    (opB u c w).place = .mem cap a →
    u.putValue c (opA u c w) 8 ⟨(u.tagSeen c a.toNat).toNat, Tag.bin, none⟩ = .ok p →
    exec (.tagget c w) s = .next (s.finished c 8 { s := p.updateCursors c [opA u c w, opB u c w] })) ∧
  (∀ (c : CoreId) (w : L64) (s u p : State) (cap : Cap) (a : Int),
    let n := specNum w.sb
    let ok := decide ((0 ≤ n ∧ n ≤ 5) ∨ n = 14 ∨ n = 15)
    PassesL s c 0x299 8 { a := .w, b := .i, c := .unused, range := fun _ => if ok then none else some (1, 0xA) } w (fun s =>
      [((opA s c w).use false true 8 .move (BitVec.ofInt 4 n)).onMem fun m => { m with align := some (8, 4), plain := false }]) u →
    (opA u c w).place = .mem cap a → u.retag c a.toNat 8 (BitVec.ofInt 4 n) = .ok p →
    exec (.tagset c w) s = .next (s.finished c 8 { s := p.updateCursors c [opA u c w] })) ∧
  (∀ (c : CoreId) (w : L64) (s u p : State) (cap : Cap) (a : Int),
    let dst := u.resolve c 0 w.sa 1
    let len := (u.value c (opB u c w) 8).w.toNat
    Passes s c 0x29A 8 w (({ a := .w, b := .vi, c := .unused } : Enc).bad w) (guardOf w) (tagcodeCheck c w)
      (fun s => [(opB s c w).source]) u →
    dst.place = .mem cap a → u.retag c a.toNat len Tag.code = .ok p →
    exec (.tagcode c w) s = .next (s.finished c 8 { s := p.updateCursors c [dst, opB u c w] }))

/-- Retagging a range of a core's own bank leaves every byte as it reads, tags every word that the range touches, and makes BIN a
capability-tagged word that shares an aligned 16 B with one of them; every other tag stays (02 R34, 03 R97). -/
def Sys2Proof.Claims.RetagOwnBank : Prop :=
  ∀ (s p : State) (c : CoreId) (a n : Nat) (t : Tag), 0 < n → a + n ≤ 0x80000 → s.retag c a n t = .ok p →
    (∀ b, p.mem.byte b = s.mem.byte b) ∧
    ∀ x, x < 0x10000 → let old := s.mem.tagAt (bankKey c (8 * x))
      p.mem.tagAt (bankKey c (8 * x)) =
        if a / 8 ≤ x ∧ x ≤ (a + n - 1) / 8 then t
        else if a / 16 ≤ x / 2 ∧ x / 2 ≤ (a + n - 1) / 16 ∧ (old = 0x6 ∨ old = 0x7) then 0x0 else old

/-- The bank atomics: TAS and BTAS set a byte to 0xFF and P[B] to whether it was not zero; BADD and BSWP give C the old word and the
word its new value; each with every earlier access performed before it, and performed itself before it completes (04 R112, R114,
Table 4.4; 02 R54). -/
def Sys2Proof.Claims.AtomicUpdates : Prop :=
  (∀ e ∈ ([(.tas, 0x2D8, [.own, .window, .main]), (.btas, 0x2DD, [.own, .window])] : List ((CoreId → L64 → Instr) × Nat × List Region)),
    ∀ (c : CoreId) (w : L64) (s u p : State),
    let a (s : State) := s.resolve c 0 w.sa 1
    let d := u.drainAll c
    PassesL s c e.2.1 8 { a := .w, b := .p, c := .unused } w (fun s => [(a s).atomic 1 e.2.2]) u →
    d.putValue c (a d) 1 ⟨0xFF, Tag.bin, none⟩ = .ok p →
    exec (e.1 c w) s = .next (s.finished c 8 { s := ((p.drainAll c).modCore c fun k =>
      k.setP ((specReg w.sb).setWidth 3) (decide ((d.value c (a d) 1).v ≠ 0))).updateCursors c [a d] })) ∧
  (∀ e ∈ ([(.badd, 0x2DB, fun x y => x + y), (.bswp, 0x2DC, fun _ y => y)] : List ((CoreId → L64 → Instr) × Nat × (Word → Word → Word))),
    ∀ (c : CoreId) (w : L64) (s u p q : State),
    let d := u.drainAll c
    let x := (d.value c (opA d c w) 8).w
    PassesL s c e.2.1 8 { a := .w, b := .vi, c := .d } w
      (fun s => [(opA s c w).atomic 8 [.own, .window], (opB s c w).source, (opC s c w).dest]) u →
    d.putValue c (opC d c w) 8 ⟨x.toNat, Tag.bin, none⟩ = .ok p →
    p.putValue c (opA d c w) 8 ⟨(e.2.2 x (d.value c (opB d c w) 8).w).toNat, Tag.bin, none⟩ = .ok q →
    exec (e.1 c w) s = .next (s.finished c 8
      { s := (q.drainAll c).updateCursors c [opA d c w, opB d c w, opC d c w] }))

/-- LRSV loads and reserves; STCN writes and sets its predicate only under a reservation on exactly its address, makes no access
otherwise, and ends the reservation either way (04 R115, R116). -/
def Sys2Proof.Claims.ReservedStore : Prop :=
  (∀ (c : CoreId) (w : L64) (s u p : State) (cap : Cap) (a : Int),
    let d := u.drainAll c
    PassesL s c 0x2D9 8 encLoad w (fun s => [(opA s c w).dest,
      ((opB s c w).use true false 8 .bin Tag.bin).onMem fun m => { m with atomic := some [.main], align := some (8, 3) }]) u →
    (opB d c w).place = .mem cap a →
    d.putValue c (opA d c w) 8 ⟨(d.value c (opB d c w) 8).w.toNat, Tag.bin, none⟩ = .ok p →
    exec (.lrsv c w) s = .next (s.finished c 8 { s := (p.modCore c fun k =>
      { k with resv := some a.toNat }).updateCursors c [opA d c w, opB d c w] })) ∧
  (∀ (c : CoreId) (w : L64) (s u : State) (cap : Cap) (a : Int),
    let v := u.value c (opB u c w) 8
    PassesL s c 0x2DA 8 { a := .w, b := .vi, c := .p } w (fun s =>
      [((opA s c w).use false true 8 .bin Tag.bin).onMem fun m =>
        { m with atomic := some [.main], align := some (8, 3), keyed := s.reserved c w }, (opB s c w).source]) u →
    (opA u c w).place = .mem cap a →
    ((u.core c).resv ≠ some a.toNat → exec (.stcn c w) s = .next (s.finished c 8 { s := (u.modCore c fun k =>
      { k.setP ((specReg w.sc).setWidth 3) false with resv := none }).updateCursors c [opA u c w, opB u c w] })) ∧
    (∀ p, (u.core c).resv = some a.toNat →
      (u.drainAll c).putValue c (opA u c w) 8 ⟨v.w.toNat, Tag.bin, none⟩ = .ok p →
      exec (.stcn c w) s = .next (s.finished c 8 { s := ((p.drainAll c).modCore c fun k =>
        { k.setP ((specReg w.sc).setWidth 3) true with resv := none }).updateCursors c [opA u c w, opB u c w] })))

/-- The derivations of capabilities, and that none of them adds authority. -/
def Obligations.CapabilitiesDerived : Prop := Claims.CapabilityDerivations ∧ Claims.DerivationsAreMonotone

/-- Capabilities and tags in memory. -/
def Obligations.CapabilityMemory : Prop := Claims.CapabilityMemoryAndTags ∧ Claims.RetagOwnBank

/-- The atomic instructions and the reservation. -/
def Obligations.Atomics : Prop := Claims.AtomicUpdates ∧ Claims.ReservedStore
/-! ## The journal -/

/-- JOPEN, with no segment open and a submission that may write, performs every earlier store and opens a segment numbered one past the last,
at its session's home ring; with one open it raises JOURNAL_FAULT 4, under SUBMIT_READONLY 6 (12 R314, R315, Table 12.1). That JOPEN performs
the earlier stores first is the model's choice (log entry 57), and so is the wrap of segment numbers (121). -/
def Sys2Proof.Claims.SegmentOpen : Prop :=
  ∀ (c : CoreId) (w : L64) (s u : State),
    let k := u.core c
    let n := (u.segCounter + 1) % 2 ^ 48
    PassesL s c 0x2E0 8 encNone w (fun _ => []) u →
    (k.jopen = true → exec (.jopen (.core c w)) s = .next (s.faulted c 8 ⟨21, 4, 3, 0⟩ u)) ∧
    (k.jopen = false → k.subOpc = 3 → exec (.jopen (.core c w)) s = .next (s.faulted c 8 ⟨21, 6, 3, 0⟩ u)) ∧
    (k.jopen = false → k.subOpc ≠ 3 → ∃ t, exec (.jopen (.core c w)) s = .next (s.finished c 8 { s := t }) ∧
      (t.core c).jopen = true ∧ (t.core c).segno.toNat = n ∧ (t.core c).sbuf = [] ∧
      t.segments.getLast? = some ⟨n, BitVec.ofNat 8 c.val, k.sidx, k.rid, 0, .writing, none, false, [], 0, none⟩)

/-- JOPEN and JDROP of the steward pair, while it serves: it opens a segment numbered one past the last, under the number of its active
pair, and drops its own, claims and all (12 R312, R314, R315, R319). That pair A is 0x60 and pair B 0x62, and that nothing changes where a
JOURNAL_FAULT stands against the steward, are the model's choices (log entry 139). -/
def Sys2Proof.Claims.StewardSegments : Prop :=
  ∀ s : State, Claims.Serves s →
    let o := s.steward.own
    let m := (s.segCounter + 1) % 2 ^ 48
    (o.jopen = false → o.subOpc ≠ 3 → ∃ t, exec (.jopen .steward) s = .next t ∧ t.steward.own.jopen = true ∧
      t.steward.own.segno.toNat = m ∧ t.mem = s.mem ∧ t.cores = s.cores ∧ t.segments.getLast? =
        some ⟨m, if s.steward.pairB then 0x62 else 0x60, o.sidx, o.rid, 0, .writing, none, false, [], 0, none⟩) ∧
    (o.jopen = true ∨ o.subOpc = 3 → exec (.jopen .steward) s = .next s) ∧
    (s.writingOf 96 = none → exec (.jdrop .steward) s = .next s) ∧
    (∀ g, s.writingOf 96 = some g → 96 ≤ g.core.toNat → ∃ t, exec (.jdrop .steward) s = .next t ∧ t.steward.own.jopen = false ∧
      (∀ x ∈ t.segments, x.segno ≠ g.segno) ∧ ∀ y, ∀ x ∈ (t.yard y).claims, x.segno ≠ g.segno)

/-- SEAL sends its request while its segment accepts writes, then waits for the outcome, and completes with P[A] true for a mirrored record
and false for one sealed locally only; SEALA waits for its seal point alone; either closes JSEG, and raises JOURNAL_FAULT 5 with no segment
(12 R316–R318). The steward's go the same way while it serves; that they are commands made again while they wait is the model's choice (log
entry 139). What a second SEALA does (51), and that a waiting instruction is issued again (50), are the model's choices too. -/
def Obligations.SealInstructions : Prop :=
  ∀ (c : CoreId) (w : L64) (s u : State),
    let forget (g : Segment) : State :=
      { u with segments := u.segments.filter fun x => decide (x.segno ≠ g.segno) || x.outcome.isNone }
    let closed (k : Core) : Core := { k with jopen := false }
    (PassesL s c 0x2E1 8 { a := .p, b := .unused, c := .unused } w (fun _ => []) u →
      (u.coreSegment c = none → exec (.seal (.core c w)) s = .next (s.faulted c 8 ⟨21, 5, 3, 0⟩ u)) ∧
      (∀ g, u.coreSegment c = some g →
        (g.state = .writing → exec (.seal (.core c w)) s = .next (s.waiting c 0x2E1 8 w false (u.requestSeal c g false))) ∧
        (g.state ≠ .writing → g.outcome = none → exec (.seal (.core c w)) s = .next (s.waiting c 0x2E1 8 w true
          (u.modCore c fun k => { k with wait := some .mirror }))) ∧
        (∀ m, g.state ≠ .writing → g.outcome = some m → exec (.seal (.core c w)) s = .next (s.finished c 8
          { s := (forget g).modCore c fun k => (closed k).setP ((specReg w.sa).setWidth 3) m })))) ∧
    (PassesL s c 0x2E2 8 encNone w (fun _ => []) u →
      (u.coreSegment c = none → exec (.seala (.core c w)) s = .next (s.faulted c 8 ⟨21, 5, 3, 0⟩ u)) ∧
      (∀ g, u.coreSegment c = some g →
        (g.state = .writing → exec (.seala (.core c w)) s = .next (s.waiting c 0x2E2 8 w false (u.requestSeal c g true))) ∧
        (g.state ≠ .writing → exec (.seala (.core c w)) s = .next (s.finished c 8 { s := (forget g).modCore c closed })))) ∧
    ∀ g, s.stewardSegment = some g → Claims.Serves s →
      let left : State := { s with
        segments := s.segments.filter fun x => decide (x.segno ≠ g.segno) || x.outcome.isNone
        steward := { s.steward with own := { s.steward.own with jopen := false } } }
      (g.state = .writing → ∀ asy, ∃ t, exec (if asy then .seala .steward else .seal .steward) s = .next t ∧ t.mem = s.mem ∧
        ∀ x ∈ t.segments, x.segno = g.segno → x.request = some asy) ∧
      (g.state ≠ .writing → exec (.seala .steward) s = .next left ∧
        (g.outcome.isSome = true → exec (.seal .steward) s = .next left))

/-- JDROP rolls the open segment back: none of its claims and requests stays, its number names no segment, JSEG.OPEN is 0; with no segment
that accepts writes it raises JOURNAL_FAULT 5 (12 R319, R336). That JDROP performs the earlier stores first is the model's choice (log entries
31, 57). -/
def Sys2Proof.Claims.SegmentDrop : Prop :=
  ∀ (c : CoreId) (w : L64) (s u : State),
    PassesL s c 0x2E3 8 encNone w (fun _ => []) u →
    (u.writingSegment c = none → exec (.jdrop (.core c w)) s = .next (s.faulted c 8 ⟨21, 5, 3, 0⟩ u)) ∧
    (∀ g, u.writingSegment c = some g → g.core.toNat = c.val → ∃ t, exec (.jdrop (.core c w)) s = .next (s.finished c 8 { s := t }) ∧
      (t.core c).jopen = false ∧ (∀ x ∈ t.segments, x.segno ≠ g.segno) ∧
      ∀ y, (∀ x ∈ (t.yard y).claims, x.segno ≠ g.segno) ∧ ∀ x ∈ (t.yard y).claimReqs, x.segno ≠ g.segno)

/-- A claim: CLAIM_REQUEST puts an unclaimed line of an open segment before its yard, while the segment has fewer than 1,024 there;
CLAIM_GRANT, once no segment claims the line, takes its undo copy, the line's 64 bytes and 8 tags as they stand, or zero and POISON in a lost
line, and sets CHG of its page; CLAIM_TIMEOUT rolls back the younger of the two segments. The fault with the line as FADDR goes to the
claiming instruction that waits, and else waits for its core's next instruction boundary (12 R320, R321, R323, R324). That an access asks for
all its lines at once and is made again once they are granted (log entry 32) and at which boundary the owed fault is taken (29) are the
model's choices. -/
def Obligations.ClaimLifecycle : Prop :=
  (∀ (o : Owner) (line : LineId) (s : State) (g : Segment),
    let a := lineAddr line.toNat
    let k := s.yard (yardOf a)
    s.writingOf o = some g → s.unclaimed g.segno a 64 ≠ [] → (k.claimCount g.segno < 1024 →
      ∃ t, exec (.claimRequest o line) s = .next t ∧ t.mem = s.mem ∧ t.cores = s.cores ∧
        ∃ r ∈ (t.yard (yardOf a)).claimReqs, r.line = a ∧ r.segno = g.segno) ∧
    (1024 ≤ k.claimCount g.segno → k.asked g.segno a = false → ∀ c : CoreId, o = ownerOf c → g.core.toNat = c.val →
      (s.core c).held = none → ∃ t, exec (.claimRequest o line) s = .next t ∧
        (t.core c).owedFault = some (BitVec.ofNat 64 a) ∧ ∀ h ∈ t.segments, h.segno ≠ g.segno)) ∧
  (∀ (o : Owner) (line : LineId) (s : State) (r : ClaimReq),
    let a := lineAddr line.toNat
    let y := yardOf a
    s.claimReq o a = some r → (s.yard y).claimOn a = none → s.lostAt (attrAddr (pageOf a)) = false →
    ∃ t x, exec (.claimGrant o line) s = .next t ∧
      (t.yard y).claims = (s.yard y).claims ++ [x] ∧ x.line = a ∧ x.segno = r.segno ∧ x.bad = 0 ∧
      x.undo.length = 64 ∧ x.undoTags.length = 8 ∧
      (∀ i, i < 64 → x.undo.getD i 0 = if s.lostAt a then 0 else s.mem.byte (a + i)) ∧
      (∀ i, i < 8 → x.undoTags.getD i 0 = if s.lostAt a then 0xE else s.mem.tagAt (a + 8 * i)) ∧
      (∀ q ∈ (t.yard y).claimReqs, ¬ (q.line = a ∧ q.segno = r.segno)) ∧
      (t.mem.byte (attrAddr (pageOf a))).getLsbD 0 = true ∧
      ∀ b, b ≠ attrAddr (pageOf a) → t.mem.byte b = s.mem.byte b) ∧
  (∀ (o : Owner) (d : CoreId) (line : LineId) (s : State) (r : ClaimReq) (x : Claim) (g : Segment),
    let a := lineAddr line.toNat
    let loser := max r.segno x.segno
    s.claimReq o a = some r → (s.yard (yardOf a)).claimOn a = some x → r.segno ≠ x.segno →
    s.segment loser = some g → g.state = .writing → g.core.toNat = d.val →
    (r.segno < x.segno ∨ (o = ownerOf d ∧ (s.core d).held = none) → ∃ t, exec (.claimTimeout o line) s = .next t ∧
      (t.core d).owedFault = some (BitVec.ofNat 64 a) ∧ ∀ h ∈ t.segments, h.segno ≠ loser) ∧
    (∀ i, x.segno < r.segno → o = ownerOf d → (s.core d).held = some i → (s.core d).run = .running → (s.core d).paddockDue = false →
      ∃ t : State, exec (.claimTimeout o line) s = .next (t.raise d i.len (operandExc r.opnd 21 3 a)) ∧ ∀ h ∈ t.segments, h.segno ≠ loser))

/-- SEGMENT_ROLLBACK of a segment of a running core or of the steward that accepts writes frees its slots and claims in both yards; one
past its seal point is left as it is, with its memory and its claims but for the words found uncorrectable (12 R336, R337). -/
def Sys2Proof.Claims.RollbackFreesClaims : Prop :=
  ∀ (n : BitVec 48) (bad : List (LineId × BitVec 8)) (s : State) (g : Segment),
    s.segment n.toNat = some g →
    (∀ c : CoreId, g.core.toNat = c.val → (s.core c).run = .running ∧ (s.core c).paddockDue = false) →
    (g.state = .writing → ∃ t, exec (.segmentRollback n bad) s = .next t ∧ (∀ x ∈ t.segments, x.segno ≠ n.toNat) ∧
      (∀ y, ∀ x ∈ (t.yard y).claims, x.segno ≠ n.toNat) ∧
      (∀ c : CoreId, g.core.toNat = c.val → (s.core c).segno = n → (t.core c).jopen = false) ∧
      (96 ≤ g.core.toNat → s.steward.own.segno = n → t.steward.own.jopen = false)) ∧
    (g.state ≠ .writing → exec (.segmentRollback n []) s = .next s ∧ ∃ t, exec (.segmentRollback n bad) s = .next t ∧
      t.mem = s.mem ∧ t.cores = s.cores ∧ t.segments = s.segments ∧
      ∀ y, (t.yard y).claims.map (fun x => { x with bad := 0 }) = (s.yard y).claims.map fun x => { x with bad := 0 })

/-- A rollback writes back what a claim captured: a segment, of a running core or of the steward, that holds one claim, of a 64 B line of a
working yard, leaves the line's bytes and tags as its undo copy has them, and no other byte of memory changed; the words of that copy that
the journal buffer cannot correct, those that SEGMENT_ROLLBACK finds among them, come back as zero tagged POISON (12 R320, R336). That
this command is where such words are found, for every later rollback to meet, is the model's choice (log entry 158). -/
def Sys2Proof.Claims.RollbackRestoresTheLine : Prop :=
  ∀ (s : State) (g : Segment) (u : Claim),
    s.segment g.segno = some g → g.state = .writing →
    (∀ c : CoreId, g.core.toNat = c.val → (s.core c).sbuf = [] ∧ (s.core c).run = .running ∧ (s.core c).paddockDue = false) →
    u.segno = g.segno → u.line % 64 = 0 → mainBase ≤ u.line → u.undo.length = 64 → u.undoTags.length = 8 →
    s.lostAt u.line = false →
    (s.yard (yardOf u.line)).claims.filter (·.segno == g.segno) = [u] →
    (∀ y, y ≠ yardOf u.line → (s.yard y).claims.filter (·.segno == g.segno) = []) →
    let t := s.rollback g.segno
    (∀ i, i < 64 → t.mem.byte (u.line + i) = if u.bad.getLsbD (i / 8) then 0 else u.undo.getD i 0) ∧
    (∀ i, i < 8 → t.mem.tagAt (u.line + 8 * i) = if u.bad.getLsbD i then 0xE else u.undoTags.getD i 0) ∧
    (∀ b, b < u.line ∨ u.line + 64 ≤ b → t.mem.byte b = s.mem.byte b) ∧
    ∀ (l : LineId) (mask : BitVec 8), lineAddr l.toNat = u.line → g.segno < 2 ^ 48 →
      ∃ v, exec (.segmentRollback (BitVec.ofNat 48 g.segno) [(l, mask)]) s = .next v ∧
        (∀ i, i < 64 → v.mem.byte (u.line + i) = if (u.bad ||| mask).getLsbD (i / 8) then 0 else u.undo.getD i 0) ∧
        ∀ i, i < 8 → v.mem.tagAt (u.line + 8 * i) = if (u.bad ||| mask).getLsbD i then 0xE else u.undoTags.getD i 0

/-- SEAL_POINT of the requested segment of a running core or of the steward: it accepts no more writes, its claims are gone from both yards,
its ring has given it the next RSEQ; SEGMENT_RECORD_HANDOVER then writes the record at its place and drops it from the segment (12 R316,
R327). That place, numbers and contents are fixed at the seal point and written at the hand-over is the model's choice (log entry 52), and so
are the tag BIN of ring words (53) and the line's state after its recall (138). -/
def Sys2Proof.Claims.SealPointAndHandover : Prop :=
  (∀ (o : Owner) (s : State) (g : Segment),
    let y := homeOf g.sidx
    s.writingOf o = some g → g.request.isSome = true →
    (∀ c : CoreId, c.val = o.val → s.canIssue c = true ∧ (s.core c).paddockDue = false) →
    ∃ t, exec (.sealPoint o) s = .next t ∧
      (∀ h ∈ t.segments, h.segno = g.segno → h.state = .sealed ∧ h.rseq = (s.yard y).ring.nextRseq) ∧
      (t.yard y).ring.nextRseq = (s.yard y).ring.nextRseq + 1 ∧
      (∀ x, ∀ q ∈ (t.yard x).claims, q.segno ≠ g.segno) ∧ t.mem = s.mem) ∧
  (∀ (n : BitVec 48) (s : State) (g : Segment) (e : RingRec),
    let y := homeOf g.sidx
    s.segment n.toNat = some g → g.state = .sealed →
    (s.yard y).ring.recs.find? (fun e => e.mine && e.rseq == g.rseq) = some e →
    ∃ t, exec (.segmentRecordHandover n) s = .next t ∧
      (∀ h ∈ t.segments, h.segno = g.segno → h.state = .handed ∧ h.record = []) ∧
      t.mem = (s.ringWrite y e.pos g.record e.nlines).mem)

/-- The ring and its stream: the marks hold and release dispatch with one log record each; a settled, written record that fits goes to the
host ring and PROD moves past it; the host moves CONS between its old value and PROD, and any other value is refused with a record (12 R335,
R338, R339; 17 Table 17.6). Which records are streamed (log entry 56) and the UNIT of the consumer's record (101) are the model's choices. -/
def Sys2Proof.Claims.RingMarksAndStream : Prop :=
  (∀ (y : Yard) (s : State), let r := (s.yard y).ring
    (r.hold = false → s.ringFree y < 0x2000000 → ∃ t, exec (.ringMarkCrossing y) s = .next t ∧ (t.yard y).ring.hold = true ∧
      t.steward.nextSeq = s.steward.nextSeq + 1 ∧ t.mem = s.mem) ∧
    (r.hold = true → 0x4000000 ≤ s.ringFree y → ∃ t, exec (.ringMarkCrossing y) s = .next t ∧ (t.yard y).ring.hold = false ∧
      t.steward.nextSeq = s.steward.nextSeq + 1 ∧ t.mem = s.mem)) ∧
  (∀ (y : Yard) (s : State) (e : RingRec), let d := (s.yard y).stream
    (s.yard y).ring.recs.find? (fun e => d.covers e && e.streamEnd.isNone) = some e → e.settled = true → e.written = true →
    d.prod + 256 * e.nlines ≤ d.cons + 2 ^ d.log2sz.toNat →
    ∃ t, exec (.streamRecordCopy y) s = .next t ∧ (t.yard y).stream = { d with prod := d.prod + 256 * e.nlines } ∧
      t.out = s.out ++ [.streamWrite y (d.prod % 2 ^ d.log2sz.toNat) (s.ringRead y e.pos e.nlines)] ∧ t.mem = s.mem) ∧
  (∀ (y : Yard) (v : Word) (s : State), let d := (s.yard y).stream
    s.pcieUp = true →
    (d.cons ≤ v.toNat → v.toNat ≤ d.prod → ∃ t, exec (.streamConsWrite y v) s = .next t ∧
      (t.yard y).stream = { d with cons := v.toNat } ∧ t.mem = s.mem ∧ t.steward.log = s.steward.log) ∧
    (v.toNat < d.cons ∨ d.prod < v.toNat → ∃ t, exec (.streamConsWrite y v) s = .next t ∧
      t.yard y = s.yard y ∧ t.steward.nextSeq = s.steward.nextSeq + 1))

/-! ## Dispatch slots and signals -/

/-- WAITD takes the oldest descriptor offered to its owner: A gets its slot's address, SESSION, RID and STATUS.DUP name its request, and the
request is taken; with none it waits. The steward takes its own in the same way while it serves (13 R354, R356; 07 R213). That WAITD performs
the earlier stores first is the model's choice (log entry 57), and so is the steward's session as such (139). -/
def Sys2Proof.Claims.DescriptorTaken : Prop :=
  (∀ (c : CoreId) (w : L64) (s u : State), let d := u.drainAll c
    PassesL s c 0x2E8 8 encD w (fun s => [(opA s c w).dest]) u →
    (d.oldestOffer c.val = none → exec (.waitd (.core c w)) s = .next (s.waiting c 0x2E8 8 w true
      (d.modCore c fun k => { k with wait := some .descriptor }))) ∧
    (∀ r n p, d.oldestOffer c.val = some (r, n) →
      d.putValue c (opA d c w) 8 ⟨0x4000 + 128 * n.val, Tag.bin, none⟩ = .ok p →
      ∃ t, exec (.waitd (.core c w)) s = .next (s.finished c 8 { s := t }) ∧
        (t.core c).rid = r.rid ∧ (t.core c).sidx = r.sidx ∧ (t.core c).slot.toNat = n.val ∧
        (t.core c).status.getLsbD 9 = r.dup ∧ t.mem = p.mem ∧
        ∀ q ∈ t.requests, q.id = r.id → q.phase = .taken (ownerOf c) n ∧ q.runSegs = 0)) ∧
  (∀ (s : State) (r : Request) (n : Fin 32), Claims.Serves s → s.oldestOffer 96 = some (r, n) →
    ∃ t, exec (.waitd .steward) s = .next t ∧ (∀ q ∈ t.requests, q.id = r.id → q.phase = .taken 96 n) ∧
      t.cores = s.cores ∧ t.mem = s.mem)

/-- The oldest offer is one, and no offer to the same owner was dispatched before it (13 R356). -/
def Sys2Proof.Claims.OldestOfferIsFirst : Prop :=
  ∀ (s : State) (o : Nat),
    (s.oldestOffer o = none ↔ ∀ r ∈ s.requests, r.offeredTo o = none) ∧
    ∀ r n, s.oldestOffer o = some (r, n) → r ∈ s.requests ∧ r.offeredTo o = some n ∧
      ∀ q ∈ s.requests, (q.offeredTo o).isSome → r.order ≤ q.order

/-- POST of a taken descriptor whose segments accept no more writes hands its request over with the first 17 bytes of its result area;
any other address raises OPERAND_FORM; the steward posts its own slots from steward memory, and where no taken descriptor stands there, or
its segment still accepts writes, nothing changes, which is the model's choice (13 R354, R357; log entry 139). That A is read whole as an
element of 128 B is the model's choice too (log entry 140). -/
def Sys2Proof.Claims.RequestPosted : Prop :=
  (∀ (c : CoreId) (w : L64) (s u : State) (cap : Cap) (a : Int),
    let dst (s : State) := s.resolve c 0 w.sa 128
    let d := u.drainAll c
    let key := c.val * 0x80000 + (a.toNat + 0x60)
    PassesL s c 0x2E9 8 { a := .m, b := .unused, c := .unused } w (fun s => [(dst s).use true false 128 .move Tag.bin]) u →
    (dst u).place = .mem cap a →
    (u.takenAt c.val 0x4000 a.toNat = none → exec (.post (.core c w)) s = .next
      (s.faulted c 8 ⟨4, 0xA, 0, (u.core c).pcc.cursor⟩ u)) ∧
    (∀ r, u.takenAt c.val 0x4000 a.toNat = some r → u.writesFor (ownerOf c) r = true → exec (.post (.core c w)) s = .next
      (s.faulted c 8 ⟨4, 0xA, 0, (u.core c).pcc.cursor⟩ u)) ∧
    (∀ r, u.takenAt c.val 0x4000 a.toNat = some r → u.writesFor (ownerOf c) r = false → ∃ t,
      exec (.post (.core c w)) s = .next (s.finished c 8 { s := t }) ∧ (t.core c).sbuf = [] ∧ t.mem = d.mem ∧
      ∀ q ∈ t.requests, q.id = r.id → q.phase = .posted ∧ q.csum = d.mem.bytes key 16 ∧ q.appstat = d.mem.byte (key + 16))) ∧
  (∀ (n : Fin 32) (s : State), s.takenAt 96 0 (128 * n.val) = none → exec (.post (.steward n)) s = .next s) ∧
  (∀ (n : Fin 32) (s : State) (r : Request), Claims.Serves s → s.takenAt 96 0 (128 * n.val) = some r →
    let key := 0x08000000 + 0x3D0000 + 128 * n.val + 0x60
    (s.writesFor 96 r = true → exec (.post (.steward n)) s = .next s) ∧
    (s.writesFor 96 r = false → ∃ t, exec (.post (.steward n)) s = .next t ∧ t.mem = s.mem ∧
      ∀ q ∈ t.requests, q.id = r.id → q.phase = .posted ∧ q.csum = s.mem.bytes key 16 ∧ q.appstat = s.mem.byte (key + 16)))

/-- SIGNAL puts its value in the queue of the core that A names, waits while four stand there, does nothing more for a core in paddock,
and raises OPERAND_FORM where A names no ledger core (07 R214). -/
def Sys2Proof.Claims.PeerSignal : Prop :=
  ∀ (c : CoreId) (w : L64) (s u : State),
    let n := (u.value c (opA u c w) 8).w.toNat
    let v := (u.value c (opB u c w) 8).w
    let moved := u.updateCursors c [opA u c w, opB u c w]
    PassesL s c 0x2F0 8 encVV w (fun s => [(opA s c w).source, (opB s c w).source]) u →
    (96 ≤ n → exec (.signal c w) s = .next (s.faulted c 8 ⟨4, 0xA, 0, (u.core c).pcc.cursor⟩ u)) ∧
    (∀ t : CoreId, t.val = n → (u.core t).run = .paddock → exec (.signal c w) s = .next (s.finished c 8 { s := moved })) ∧
    (∀ t : CoreId, t.val = n → (u.core t).run ≠ .paddock → 4 ≤ (u.core t).peers.length →
      exec (.signal c w) s = .next (s.waiting c 0x2F0 8 w true (u.modCore c fun k => { k with wait := some .peer }))) ∧
    (∀ t : CoreId, t.val = n → (u.core t).run ≠ .paddock → (u.core t).peers.length < 4 →
      exec (.signal c w) s = .next (s.finished c 8
        { s := moved.modCore t fun k => { k with peers := k.peers ++ [(c, v)] } }))

/-- `JOPEN` and `JDROP`, of a core and of the steward pair. -/
def Obligations.SegmentOpenAndDrop : Prop := Claims.SegmentOpen ∧ Claims.SegmentDrop ∧ Claims.StewardSegments

/-- A rollback. -/
def Obligations.Rollback : Prop := Claims.RollbackFreesClaims ∧ Claims.RollbackRestoresTheLine

/-- Records, rings, marks and the journal stream. -/
def Obligations.RecordsAndRings : Prop := Claims.SealPointAndHandover ∧ Claims.RingMarksAndStream

/-- `WAITD`. -/
def Obligations.Dispatched : Prop := Claims.DescriptorTaken ∧ Claims.OldestOfferIsFirst

/-- `POST` and `SIGNAL`. -/
def Obligations.PostsAndSignals : Prop := Claims.RequestPosted ∧ Claims.PeerSignal
/-! ## Interrupts, entries and stops -/

/-- The exception of the interrupt that ranks highest among those pending and enabled: debug halt, steward signal, peer signal,
dispatch, timer (07 R191, Table 7.7). -/
def Sys2Proof.Claims.pendingInterrupt (s : State) (c : CoreId) : Option ExcOperand :=
  let k := s.core c
  if k.dbgHalt ∧ k.dbgctl.getLsbD 0 ∧ k.ien.getLsbD 3 then some ⟨20, 4, 3, 0⟩
  else match k.steward, k.peers with
    | some (code, arg), _ => some ⟨23, code, 3, arg⟩
    | none, (from_, v) :: _ =>
      if k.ien.getLsbD 2 then some ⟨25, BitVec.ofNat 16 from_.val, 3, v⟩ else belowPeer
    | none, [] => belowPeer
where
  belowPeer : Option ExcOperand :=
    let k := s.core c
    match (if k.ien.getLsbD 1 ∧ k.wait ≠ some .descriptor then s.oldestOffer c.val else none) with
    | some (_, n) => some ⟨24, BitVec.ofNat 16 n.val, 3, 0⟩
    | none => if k.tcmp ≤ s.timer ∧ k.ien.getLsbD 0 then some ⟨22, 1, 3, 0⟩ else none

/-- INTERRUPT_RECOGNITION on a running core with STATUS.IE at depth 2 or less, out of its grace, not between the two instructions of a pair
and between a transfer and its slot only once the slot has begun, its engine in no wait that holds recognition and at no word that commits,
enters the interrupt that ranks highest one depth up, and nowhere else; nothing happens where none is pending (07 R191–R193, R195, Table 7.7;
08 R220; 09 R242, R246, Table 9.4). Which instructions issue as a pair is free (log entry 160, DESIGN CHOICE). -/
def Sys2Proof.Claims.InterruptRecognition : Prop :=
  ∀ (c : CoreId) (s : State),
    let k := s.core c
    k.run = .running → k.status.getLsbD 0 = true → k.depth.val ≤ 2 → k.grace = false → k.midPair = false →
    (∀ d, k.delay = some d → d.begun ≠ 0 ∨ k.engine.isSome = true) →
    (∀ e, k.engine = some e → let w := k.engineWord e
      waitCode w ≠ 0x02 ∧ waitCode w ≠ 0x0C ∧ (waitCode w = 0 → commitCode w = 0)) → (s.sheds[shedOf c]).retained = false →
    (Claims.pendingInterrupt s c = none → exec (.interruptRecognition c) s = .next s) ∧
    (∀ e, Claims.pendingInterrupt s c = some e → ∃ t, exec (.interruptRecognition c) s = .next t ∧
      (t.core c).depth.val = k.depth.val + 1 ∧ (t.core c).faddr = e.faddr ∧
      (t.core c).cause.toNat = e.code.toNat + e.vec.val * 0x10000 + 3 * 0x400000 ∧
      (t.core c).pcc = k.hpcc.withCursor (0x20 * e.vec.val : Nat) ∧ (t.core c).wait = none ∧ (t.core c).engine = none ∧
      t.mem = s.mem ∧ ∀ d, d ≠ c → t.core d = s.core d)

/-- Where no interrupt is recognised: at depth 3, with STATUS.IE 0, in the grace after RETX, between the two instructions of a pair, before
a delay slot that has not begun, at a word of a routine that commits, on a core that does not run (07 R192, R207; 08 R220; 09 R246). -/
def Sys2Proof.Claims.NoInterruptRecognised : Prop :=
  ∀ (c : CoreId) (s : State), let k := s.core c
    k.run ≠ .running ∨ k.status.getLsbD 0 = false ∨ k.depth.val = 3 ∨ k.grace = true ∨ k.midPair = true ∨
      (∃ e, k.engine = some e ∧ waitCode (k.engineWord e) = 0 ∧ commitCode (k.engineWord e) ≠ 0) ∨ (∃ d, k.delay = some d ∧ d.begun = 0 ∧ k.engine = none) →
    exec (.interruptRecognition c) s = .next s

/-- The sources of interrupts and of stops: TIMER reaching TCMP, a steward signal, a debug halt; an exception of the instruction due,
which saves that instruction, or of rank 10 the next one, and at depth 3 stops its core, kept for the dump with that instruction's PCC
(07 R191, R198, R209, R210, Tables 7.2, 7.5, 7.7; 10 R282). The model's own choices here: which vectors SYNCHRONOUS_EXCEPTION_ENTRY enters (log
entry 62), that TIMER_MATCH brings TIMER to TCMP (63), that a second STEWARD_SIGNAL takes the place of one still latched (64). -/
def Sys2Proof.Claims.SignalsAndDetectedExceptions : Prop :=
  (∀ (c : CoreId) (s : State),
    (s.timer < (s.core c).tcmp → exec (.timerMatch c) s = .next { s with timer := (s.core c).tcmp }) ∧
    exec (.debugHaltRequest c) s = .next (s.modCore c fun k => { k with dbgHalt := true })) ∧
  (∀ (c : CoreId) (code : BitVec 16) (arg : Word) (s : State),
    exec (.stewardSignal c code arg) s = .next (s.modCore c fun k => { k with steward := some (code, arg) })) ∧
  (∀ (c : CoreId) (e : ExcOperand) (s : State), s.canIssue c = true → (s.core c).engine = none →
    e.vec.val = 1 ∨ (3 ≤ e.vec.val ∧ e.vec.val ≤ 21) ∨ 32 ≤ e.vec.val →
    ((s.core c).depth.val < 3 → ∃ t, exec (.synchronousExceptionEntry c e) s = .next t ∧
      (t.core c).depth.val = (s.core c).depth.val + 1 ∧ (t.core c).faddr = e.faddr ∧ (t.core c).run = .running ∧
      (t.core c).pcc = (s.core c).hpcc.withCursor (0x20 * e.vec.val : Nat) ∧ t.mem = s.mem ∧
      ((s.core c).delay = none → (t.core c).shadows[(t.core c).depth].pcc =
        if e.vec.val = 10 ∨ 32 ≤ e.vec.val
        then ((s.core c).pcc.withCursor ((s.core c).pcc.cursor.toNat + s.lengthAt c (s.core c).pcc.cursor.toNat : Nat)).even
        else (s.core c).pcc)) ∧
    ((s.core c).depth.val = 3 → ∃ t, exec (.doubleException c e) s = .next t ∧ (t.core c).run = .fatal e 1 ∧
      (t.core c).pcc.cursor.toNat / 2 = (s.core c).pcc.cursor.toNat / 2 ∧ (t.core c).bank.g = (s.core c).bank.g ∧
      (t.core c).shadows = (s.core c).shadows ∧ (t.core c).depth = (s.core c).depth ∧
      (e.vec.val ≠ 10 → e.vec.val < 32 → (t.core c).banks = (s.core c).banks) ∧ t.mem = s.mem))

/-- The words that Table 7.6 gives the registers of bank b of a core, at their offsets, and zero at its reserved one (07 R202). -/
def Sys2Proof.Claims.BankWords (k : Core) (b : Fin 4) (word : Nat → Word) : Prop :=
  let bk := k.banks[b]
  (∀ n : Fin 16, word (8 * n.val) = if n = 0 then 0 else bk.g[n].val) ∧
  (∀ n : Fin 16, (word 0x80).extractLsb' (4 * n.val) 4 = if n = 0 then 0 else bk.g[n].tag) ∧
  (∀ i, (word 0x88).getLsbD i = (decide (1 ≤ i ∧ i < 8) && bk.p.getLsbD i)) ∧
  (∀ n : Fin 16, (word 0x90).getLsbD n.val = (decide (n ≠ 0) && bk.c[n].valid)) ∧ (∀ i, 18 ≤ i → (word 0x90).getLsbD i = false) ∧
  word 0x98 = 0 ∧
  (∀ n : Fin 16, word (0x100 + 16 * n.val) = (if n = 0 then 0 else bk.c[n].cursor) ∧
    word (0x108 + 16 * n.val) = if n = 0 then 0 else bk.c[n].high)

/-- The words that Table 7.6 gives the shadow slots of a bank other than bank 0, at their offsets (07 R202). -/
def Sys2Proof.Claims.ShadowWords (sh : Shadow) (word : Nat → Word) : Prop :=
  (word 0x90).getLsbD 16 = sh.pcc.valid ∧ (word 0x90).getLsbD 17 = sh.tpcc.valid ∧
  word 0xA0 = sh.pcc.cursor ∧ word 0xA8 = sh.pcc.high ∧ word 0xB0 = sh.tpcc.cursor ∧ word 0xB8 = sh.tpcc.high ∧
  word 0xC0 = sh.status ∧ (∀ i, (word 0xC8).getLsbD i = (decide (1 ≤ i ∧ i < 8) && sh.pred.getLsbD i)) ∧ word 0xD0 = sh.resume ∧
  word 0xD8 = sh.cause ∧ word 0xE0 = sh.faddr ∧ word 0xE8 = sh.mh ∧ word 0xF0 = sh.ml ∧ (word 0xF8).toNat = sh.skip.toNat

/-- PADDOCK_DUMP of a stopped core with no open segment writes its 2 KiB dump at 0x0800 of the local bank, tagged BIN: banks 0 to 3 as
Table 7.6 lays them out, with the live PCC, STATUS, predicates, RESUME, MH and ML and the fatal CAUSE and FADDR in bank 0. It puts the core in
paddock with EN 0 and logs CORE_STOP with the time of the stop. RESTART_ENTRY brings a stopped core, but none in paddock, to vector 0 with
every register as at reset but HPCC, HDCC, DBGCTL.EN and the repair state (07 R209–R211, Table 7.6, 02 Tables 2.3–2.6; 17 R426, Table 17.6). The
model's own choices here: the order of the steward's steps (log entry 134), no saved PCC shown valid in bank 0 (135), and an HPCC that cannot hold
cursor 0, which keeps its validity (155). -/
def Sys2Proof.Claims.PaddockDumpAndVectorZero : Prop :=
  (∀ (c : CoreId) (s : State) (e : ExcOperand) (why : Nat),
    (s.core c).run = .fatal e why → s.openSegments c = [] → (s.core c).sbuf = [] →
    ∃ t, exec (.paddockDump c) s = .next t ∧ (t.core c).run = .paddock ∧ (t.entry (ownerOf c)).en = false ∧
      (∀ b, b < bankKey c 0x800 ∨ bankKey c 0x1000 ≤ b → t.mem.byte b = s.mem.byte b) ∧
      (∀ i, i < 256 → t.mem.tagAt (bankKey c (0x800 + 8 * i)) = Tag.bin) ∧
      (let k := s.core c
       let word (b : Fin 4) (off : Nat) : Word := BitVec.ofNat 64 (leNat (t.mem.bytes (bankKey c (0x800 + 0x200 * b.val + off)) 8))
       (∀ b, Claims.BankWords k b (word b)) ∧ (∀ b : Fin 4, b ≠ 0 → Claims.ShadowWords k.shadows[b] (word b)) ∧
         word 0 0xA0 = k.pcc.cursor ∧ word 0 0xA8 = k.pcc.high ∧ word 0 0xB0 = 0 ∧ word 0 0xB8 = 0 ∧ word 0 0xC0 = k.statusRead ∧
         (∀ i, (word 0 0xC8).getLsbD i = (decide (1 ≤ i ∧ i < 8) && k.bank.p.getLsbD i)) ∧ word 0 0xD0 = k.resume ∧
         (word 0 0xD8).toNat = e.code.toNat + e.vec.val * 0x10000 + e.opnd.toNat * 0x400000 ∧ word 0 0xE0 = e.faddr ∧
         word 0 0xE8 = k.mh ∧ word 0 0xF0 = k.ml ∧ word 0 0xF8 = 0) ∧
      t.steward.nextSeq = s.steward.nextSeq + 1 ∧
      t.steward.log.getLast? = some ⟨s.steward.nextSeq, 0x01, 2, BitVec.ofNat 16 c.val,
        match (s.core c).stop with
        | some x => x.time
        | none => s.timer,
        e.code.setWidth 32, BitVec.ofNat 32 (e.vec.val + why * 0x100), e.faddr⟩) ∧
  (∀ (c : CoreId) (cause : RestartCause) (s : State), (s.core c).run = .paddock → exec (.restartEntry c cause) s = .next s) ∧
  (∀ (c : CoreId) (cause : RestartCause) (s : State),
    cause ≠ .paddockRelease → (s.core c).run = .stopped → (s.core c).paddockDue = false → (s.sheds[shedOf c]).retained = false →
    5 ≤ s.steward.stage → s.steward.warmWait = false → s.openSegments c = [] → (s.core c).sbuf = [] →
    ∃ t, exec (.restartEntry c cause) s = .next t ∧ t.mem = s.mem ∧
      let k := t.core c
      k.run = .running ∧ k.depth = 0 ∧ k.pcc = { (s.core c).hpcc with cursor := 0 } ∧
      (∀ r : BitVec 4, k.getG r = ⟨0, 0, none⟩) ∧
      (∀ b : Fin 4, k.banks[b].p = 0 ∧ k.banks[b].g = Vector.replicate 16 ⟨0, 0, none⟩ ∧
        (∀ n : Fin 16, k.banks[b].c[n] = if n = 15 then (s.core c).hdcc else Cap.null) ∧
        k.shadows[b] = ⟨Cap.null, Cap.null, 0, 0, 0, 0, 0, 0, 0, 0⟩) ∧
      k.status = 0xA ∧ k.flags = 0 ∧ k.fpctl = 0 ∧ k.resume = 0 ∧ k.mh = 0 ∧ k.ml = 0 ∧ k.product = none ∧ k.fpq = [] ∧ k.zone = 3 ∧
      k.currency = 0x0000010000000000 ∧ k.faddr = 0 ∧ k.tcmp = 0xFFFFFFFFFFFFFFFF ∧ k.corecfg = 0x1E ∧ k.jopen = false ∧
      k.segno = 0 ∧ k.sidx = 0 ∧ k.slot = 0 ∧ k.rid = 0 ∧ k.resv = none ∧ k.ien = 0xA ∧ k.peers = [] ∧ k.steward = none ∧
      k.dbgHalt = false ∧ k.iam = 0 ∧ k.dam = 0 ∧ k.damask = 0 ∧ k.dbgctl = (s.core c).dbgctl &&& 1 ∧
      k.cause.toNat = 3 * 0x400000 + (match cause with | .coldStart => 1 | .restartCommand => 2 | .paddockRelease => 3) ∧
      k.spareMap = (s.core c).spareMap ∧ k.corr = (s.core c).corr ∧ k.uncorr = (s.core c).uncorr ∧ k.cs = (s.core c).cs ∧
      k.hpcc = { (s.core c).hpcc with cursor := 0 } ∧ k.hdcc = (s.core c).hdcc)

/-- The engine and its control store. A micro-coded instruction whose entry word fails stops its core with nothing done; CONTROL_STORE_ERROR
begins the routine of the one due, `SEALA` and `JDROP` say, once its checks have passed, and runs the words given: a word that fails parity or form
stops the core, the instruction abandoned and nothing else changed; one that raises, or waits, has no effect; one that commits nothing
stages and goes where SEQ takes it; a progress word commits a unit with the RESUME it composes, a final word completes the instruction.
CONTROL_STORE_RELOAD writes the 64-word block from the merged image and lets the core run again where it reads back and the error is neither
the second of its word nor past the sixteenth of the core within the second before it was found, and sends it to paddock otherwise, with a
CS_ERROR record of that time (09 R237–R250, Tables 9.2–9.4; 17 Tables 17.5, 17.6). What a routine computes is what the chapter of its
instruction gives, so a unit and a result are that chapter's (log entry 134, DESIGN CHOICE). -/
def Sys2Proof.Claims.ControlStoreErrors : Prop :=
  (∀ (c : CoreId) (opc : Nat) (enc : Enc) (w : L64) (uses : State → List Use) (body : Body) (s : State),
    Claims.Reaches s c opc 8 w (enc.bad w) → microCoded opc = true → (s.core c).engine = none →
    let f := s.fetched c 8
    let u := f.readied c (uses f)
    f.accessFault c (uses f) = none →
    (let a := BitVec.ofNat 13 opc
     let word := ((u.core c).csWord a).setWidth 128
     let groups := parityGroups word (((u.core c).csWord a).extractLsb' 128 8)
     (u.core c).cs.isSome = true → ((u.core c).cs.bind fun ws => ws.find? (·.1 == a.toNat)).isSome = true →
     groups ≠ 0 ∨ malformedAt word 0 = true →
      let t := s.issueL c opc 8 enc w uses body
      (t.core c).run = .csError a groups (malformedAt word 0) u.timer ∧ (t.core c).csHist = (u.core c).csHist ++ [(a, u.timer)] ∧
      (t.core c).engine = none ∧ (t.core c).held = none ∧ (t.core c).banks = (u.core c).banks ∧ t.mem = u.mem) ∧
    ((u.core c).wordFails (BitVec.ofNat 13 opc) 0 = false → (s.core c).beginOnly = true →
      let t := s.issueL c opc 8 enc w uses body
      (t.core c).engine = some ⟨BitVec.ofNat 13 opc, [], 0, [], [], []⟩ ∧ (t.core c).banks = (u.core c).banks ∧ t.mem = u.mem ∧
        (∃ h, (t.core c).held = some h ∧ h.opc = opc ∧ h.len = 8 ∧ h.w = w))) ∧
  (∀ (c : CoreId) (flips : List (BitVec 13 × BitVec 136)) (trail : List MicroStep) (s : State),
    let v := s.modCore c fun k => k.flipCs flips
    let k := v.core c
    let run (trail : List MicroStep) : Host.Outcome State Fault Refusal := exec (.controlStoreError c flips trail) s
    (v.canIssue c = false → run trail = .next v) ∧
    (k.engine = none → (∀ opc w, v.storedL64 c = some (opc, w) → microCoded opc.toNat = false) → run trail = .next v) ∧
    (∀ e ∈ ([(0x2E2, fun c w => .seala (.core c w)), (0x2E3, fun c w => .jdrop (.core c w))] : List (BitVec 10 × (CoreId → L64 → Instr))),
      ∀ w t, v.storedL64 c = some (e.1, w) → v.canIssue c = true → k.engine = none →
      exec (e.2 c w) (v.modCore c fun k => { k with beginOnly := true }) = .next t → (t.core c).engine.isSome = true →
      (∀ x, (t.core c).engine = some x → (t.core c).engineFails x = false) → run [] = .next t) ∧
    (∀ e, k.engine = some e → v.canIssue c = true →
      let word := (k.csWord e.addr).setWidth 128
      let groups := parityGroups word ((k.csWord e.addr).extractLsb' 128 8)
      (k.engineFails e = true → ∃ t, run trail = .next t ∧
        (t.core c).run = .csError e.addr groups (malformedAt word e.stack.length) s.timer ∧
        (t.core c).csHist = (s.core c).csHist ++ [(e.addr, s.timer)] ∧ (t.core c).engine = none ∧ (t.core c).held = none ∧
        (t.core c).banks = (s.core c).banks ∧ t.mem = s.mem) ∧
      (k.engineFails e = false →
        run [] = .next v ∧
        ∀ x, (raises word = true ∨ (waitCode word ≠ 0 ∧ x.ready = false) → run [x] = .next v) ∧
          ∀ h, k.held = some h → raises word = false → waitCode word = 0 ∨ x.ready = true →
            let staged := v.modCore c fun k => { k with engine := some (e.stage word x) }
            (commitCode word = 0 →
              let e' := (e.stage word x).sequence word x
              k.engineFails e' = false → run [x] = .next (v.modCore c fun k => { k with engine := some e' })) ∧
            (commitCode word = 1 → h.opc = 0x180 → ∀ t, (planOf .smov c h.w).commitOne c h.w staged = some t →
              let e' := Engine.sequence { e.stage word x with staged := [] } word x
              (t.core c).engineFails e' = false → run [x] = .next (t.modCore c fun k => { k with engine := some e' })) ∧
            (commitCode word = 2 → h.opc = 0x2E3 → ∀ t, exec (.jdrop (.core c h.w)) staged = .next t → (t.core c).engine = none →
              run [x] = .next t)))) ∧
  (∀ (e : Engine) (w : BitVec 128) (x : MicroStep),
    (seqCode w = 0 → e.sequence w x = { e with addr := BitVec.ofNat 13 ((e.addr.toNat + 1) % 0x2000) }) ∧
    (seqCode w = 2 → (e.sequence w x).addr = if x.cond then BitVec.ofNat 13 (w.toNat / 2 ^ 115) else e.addr + 1) ∧
    (seqCode w = 3 → (e.sequence w x).addr = BitVec.ofNat 13 (w.toNat / 2 ^ 115 / 16 * 16 + x.key.toNat)) ∧
    (seqCode w = 4 → ∀ v y, seqCode v = 5 → (e.sequence w x).sequence v y = { e with addr := e.addr + 1 }) ∧
    (seqCode w = 6 → (e.sequence w x).counter = e.counter - 1 ∧
      (e.sequence w x).addr = if e.counter = 1 then e.addr + 1 else BitVec.ofNat 13 (w.toNat / 2 ^ 115))) ∧
  (∀ (c : CoreId) (first second : List (BitVec 6 × BitVec 136)) (s : State) (addr : BitVec 13) (groups : BitVec 8) (bad : Bool)
    (time : Word), (s.core c).run = .csError addr groups bad time → (s.core c).cs.isSome = true →
    let recent := (s.core c).csHist.filter fun e => decide (time.toNat ≤ e.2.toNat + 1000000000)
    let out := 2 ≤ (recent.filter fun e => e.1 == addr).length ∨ 17 ≤ recent.length
    ∃ t, exec (.controlStoreReload c first second) s = .next t ∧ (t.steward.log.getLast?.map (·.time)) = some time ∧
      (first = [] → ¬ out → (t.core c).run = .running ∧ (t.core c).banks = (s.core c).banks ∧
        ∀ i, i < 64 → let a := BitVec.ofNat 13 (addr.toNat / 64 * 64 + i)
          (t.core c).csWord a = parityOf (s.microword a) ++ s.microword a) ∧
      (out → (t.core c).run = .paddock) ∧
      (∀ i x, x ≠ 0 → first = [(i, x)] → second = first → (t.core c).run = .paddock))

/-! ## Sheds: caches, banks, retention -/

/-- STORE_BUFFER_DRAIN performs the oldest entry and leaves the rest, in their order; the fills and directory actions keep what 10 R280
says of a line: a miss of an unshared line owns it, of a shared one adds a sharer, of one owned elsewhere shares it, and a record that its set
has no room for replaces another, recalled from every L2; ownership takes the line from every other L2; eviction and replacement forget it,
and a dirty line that has become lost is then reported, not written (08 R225, R226; 10 R280, Tables 10.6, 10.7; 11 R301). Which bits choose
the set, and that the record replaced is the oldest, are the model's choice (log entry 157, DESIGN CHOICE). -/
def Obligations.CachesAndDirectory : Prop :=
  (∀ (c : CoreId) (s : State) (e : SbEntry) (rest : List SbEntry), (s.core c).sbuf = e :: rest →
    exec (.storeBufferDrain c) s = .next ((s.modCore c fun k => { k with sbuf := rest }).performEntry c e)) ∧
  (∀ (h : ShedId) (line : LineId) (s : State), (s.sheds[h]).retained = false → let n := line.toNat
    let victim := (s.yard (yardOf (lineAddr n))).dirVictim n
    ∃ t, exec (.directoryReadMiss h line) s = .next t ∧ t.mem = s.mem ∧ (victim = none → t.cores = s.cores) ∧
      t.dirOf n = (match s.dirOf n with
        | none => some (.owned h)
        | some (.shared v) => some (.shared (v ||| (1#12 <<< h.val)))
        | some (.owned o) => if o = h then some (.owned h) else some (.shared ((1#12 <<< o.val) ||| (1#12 <<< h.val)))) ∧
      (∀ m, victim = some m → s.dirOf n = none ∧ t.dirOf m = none ∧ (∀ o : ShedId, (t.sheds[o]).l2State m = none) ∧
        ∀ c, (t.core c).resv.map lineId ≠ some m) ∧
      ((s.sheds[h]).l2State n = none → ∀ b, ∃ u, exec (.l2MissFill h line b) s = .next u ∧ u.dirOf n = t.dirOf n ∧
        u.mem = s.mem ∧ (u.sheds[h]).l2State n = some (match t.dirOf n with
          | some (.owned _) => .e
          | _ => .s))) ∧
  (∀ (h : ShedId) (line : LineId) (s : State), (s.sheds[h]).retained = false → let n := line.toNat
    ∃ t, exec (.directoryOwnership h line) s = .next t ∧ t.mem = s.mem ∧ t.dirOf n = some (.owned h) ∧
      (t.sheds[h]).l2State n = some .m ∧ ∀ o : ShedId, o ≠ h → (t.sheds[o]).l2State n = none) ∧
  (∀ (h : ShedId) (line : LineId) (s : State), let n := line.toNat
    (∃ t, exec (.directoryEviction h line) s = .next t ∧ t.mem = s.mem ∧ (t.sheds[h]).l2State n = none ∧
      t.dirOf n ≠ some (.owned h) ∧ (∀ c, shedOf c = h → (t.core c).resv.map lineId ≠ some n) ∧
      ((s.sheds[h]).l2State n = some .m → s.lostAt (lineAddr n) = true →
        t.steward.nextSeq = s.steward.nextSeq + 1 ∧ t.steward.log.getLast?.map (fun r => (r.cls, r.sev)) = some (0x12, 3))) ∧
    (∃ t, exec (.directoryReplacement line) s = .next t ∧ t.mem = s.mem ∧ t.dirOf n = none ∧
      (∀ o : ShedId, (t.sheds[o]).l2State n = none) ∧ ∀ c, (t.core c).resv.map lineId ≠ some n)) ∧
  (∀ (h : ShedId) (page : BitVec 25) (s : State), (s.sheds[h]).retained = false →
    ∃ t, exec (.keyCacheFill h page) s = .next t ∧ (page.toNat, s.attr page.toNat) ∈ (t.sheds[h]).keyCache ∧ t.mem = s.mem) ∧
  (∀ (s : State) (page : Nat) (chg : Bool) (rest : List (Nat × Bool)), s.refChg = (page, chg) :: rest →
    s.lostAt (attrAddr page) = false →
    ∃ t, exec .refChgSetRequest s = .next t ∧ t.refChg = rest ∧
      t.mem.byte (attrAddr page) = s.mem.byte (attrAddr page) ||| (if chg then 1 else 2) ∧
      ∀ b, b ≠ attrAddr page → t.mem.byte b = s.mem.byte b) ∧
  (∀ (s : State) (page : Nat) (chg : Bool) (rest : List (Nat × Bool)), s.refChg = (page, chg) :: rest →
    s.lostAt (attrAddr page) = true →
    ∃ t, exec .refChgSetRequest s = .next t ∧ t.refChg = rest ∧ t.mem = s.mem ∧ t.steward.nextSeq = s.steward.nextSeq + 1)

/-- The uses by port A that an instruction's window accesses can meet: those of the banks of other cores, but never of the word of a bank
atomic itself, resolved once results still due have landed (04 R117, R129, 10 R262, R264). -/
def Sys2Proof.Claims.met (s : State) (c : CoreId) (acc : WindowAccess) (hits : List PortHit) : List PortHit :=
  hits.filter fun h => s.region h.addr == .window && slotCore c ((h.addr - 0x01000000) / 0x80000) != c && (s.modCore c Core.landFp).atomicWord c acc != some h.addr

/-- SHED_WINDOW_ACCESS, of the 21 opcodes listed, is its instruction run while port A uses those words: a load of a word that port A
writes delivers an undefined value, POISON and a mark; a store of a word that port A uses raises BANK_COLLISION at that word (10 R262,
R264–R267, Table 10.3). That the command is the issue of the instruction with a list of port-A uses is the model's choice (log entry 68), and
so is the form of the undefined value, a free value of its own for each collided word (log entry 3). A commit word presented again is written or
counted where it can be a word of the commit in hand, and the sixteenth refusal raises BANK_COLLISION (10 R268, 02 R45). -/
def Obligations.ShedWindowPortB : Prop :=
  (∀ e ∈ ([(0x000, fun c w => .mov c (.l64 w)), (0x030, .ldb), (0x031, .ldh), (0x032, .ldw), (0x033, .ldbs), (0x034, .ldhs), (0x035, .ldws),
        (0x038, fun c w => .stb (.core c w)), (0x039, fun c w => .sth (.core c w)), (0x03A, fun c w => .stw (.core c w)),
        (0x280, .cld), (0x281, .cst), (0x298, .tagget), (0x299, .tagset), (0x2D8, .tas), (0x2DB, .badd), (0x2DC, .bswp), (0x2DD, .btas),
        (0x180, .smov), (0x104, .dmov), (0x001, fun c w => .add c (.l64 w))] : List (BitVec 10 × (CoreId → L64 → Instr))),
    ∀ (c : CoreId) (w : L64) (hits : List PortHit) (s : State),
    let met := Claims.met s c (.l64 e.1 w) hits
    ∃ t, exec (e.2 c w) (s.modCore c fun k => { k with ports := met, portMicro := microCoded e.1.toNat }) = .next t ∧
      exec (.shedWindowAccess c (.l64 e.1 w) hits) s = .next
        { t.modCore c fun k => { k with ports := [], portMicro := false } with fresh := t.fresh + met.length }) ∧
  (∀ (c : CoreId) (w : L64) (hits : List PortHit) (s u : State) (cap : Cap) (a : Int) (h : PortHit),
    let met := Claims.met s c (.l64 0x000 w) hits
    let v := s.modCore c fun k => { k with ports := met, portMicro := false }
    let clean (t : State) : State := { t.modCore c fun k => { k with ports := [], portMicro := false } with fresh := t.fresh + met.length }
    PassesL v c 0x000 8 encDV w (moveUses c w) u → (u.core c).ports = met → u.region a.toNat = .window → a.toNat % 8 = 0 →
    met.find? (fun x => x.addr == a.toNat) = some h →
    ((opB u c w).place = .mem cap a → h.use = .write → ∀ p,
      u.putValue c (opA u c w) 8 ⟨(Config.collidedData (u.fresh + met.findIdx fun x => x.addr == a.toNat)).toNat, 0xE,
        some (BitVec.ofNat 64 a.toNat)⟩ = .ok p →
      exec (.shedWindowAccess c (.l64 0x000 w) hits) s = .next (clean (v.finished c 8
        { s := p.updateCursors c [opA u c w, opB u c w] }))) ∧
    ((opA u c w).place = .mem cap a → h.use ≠ .none → 0 < h.times →
      exec (.shedWindowAccess c (.l64 0x000 w) hits) s = .next (clean (v.faulted c 8 ⟨19, 2, 0, BitVec.ofNat 64 a.toNat⟩ u)))) ∧
  (∀ (c : CoreId) (addr data : Word) (tag : Tag) (s : State),
    let a := addr.toNat / 8 * 8
    let n := (a - 0x01000000) / 0x80000
    s.region a = .window → slotCore c n ≠ c → s.remoteUnavailable c n = false → s.canIssue c = true →
    tag.toNat < 9 ∨ 13 < tag.toNat →
    (s.commitFits c a (storeTag tag) = false → ∀ busy, exec (.commitWordRepresented c addr data tag busy) s = .next s) ∧
    (s.commitFits c a (storeTag tag) = true →
    (∃ t, exec (.commitWordRepresented c addr data tag false) s = .next t ∧ (t.core c).represented = 0 ∧
      t.mem.bytes (s.key c a) 8 = toLe 8 data.toNat ∧ t.mem.tagAt (s.key c a) = storeTag tag) ∧
    ((s.core c).represented < 15 → exec (.commitWordRepresented c addr data tag true) s = .next
      (s.modCore c fun k => { k with represented := k.represented + 1 })) ∧
    (15 ≤ (s.core c).represented → (s.core c).depth.val < 3 →
      ∃ t, exec (.commitWordRepresented c addr data tag true) s = .next t ∧ (t.core c).represented = 0 ∧
        (t.core c).faddr = BitVec.ofNat 64 a ∧ (t.core c).cause.toNat = 2 + 19 * 0x10000 ∧ t.mem = s.mem)))

/-- Errors, marches and repairs of a bank: a corrected word counts in CORR, an uncorrectable one reads zero tagged POISON and counts in
UNCORR; the scrubber takes the row that is due, and the next after it, and only counts the errors of a row that no access reaches; a row
with more than four corrections within a second has a march of its stripe due; a march borrows its stripe, copies, tests and restores it, as
MARCHST tells, and maps the row that failed, or that had the corrections, to a free spare with a ROW_REPAIR record (10 R259, R263, R272, R274,
R277, Table 10.8; 17 R415). That a stripe takes three commands, with memory as it stands throughout, is the model's choice (log entry 30,
DESIGN CHOICE), and so is what an error of a row mapped away does (136). -/
def Sys2Proof.Claims.BankErrorsAndRepair : Prop :=
  (∀ (c : CoreId) (n : BitVec 16) (s : State), (s.sheds[shedOf c]).retained = false →
    exec (.secdedCorrection c n false) s = .next (s.modCore c fun k => { k with
      corr := if k.corr.toNat = 0xFFFF then 0xFFFF else k.corr + 1
      rowFixes := (k.rowFixes.filter fun e => decide (s.timer.toNat ≤ e.2.toNat + 1000000000)) ++ [(n.toNat / 4, s.timer)] }) ∧
    ∃ t, exec (.secdedCorrection c n true) s = .next t ∧ t.mem.bytes (bankKey c (8 * n.toNat)) 8 = List.replicate 8 0 ∧
      t.mem.tagAt (bankKey c (8 * n.toNat)) = 0xE ∧
      (t.core c).uncorr.toNat = min 0xFFFF ((s.core c).uncorr.toNat + 1) ∧ t.steward.nextSeq = s.steward.nextSeq + 1) ∧
  (∀ (c : CoreId) (row : Nat) (errs : List (BitVec 2 × Bool)) (s : State), (s.sheds[shedOf c]).retained = false →
    ((s.core c).scrubNext < 16384 ∧ (∀ e ∈ (s.core c).spareMap, e.1 ≠ (s.core c).scrubNext) ∧ row = (s.core c).scrubNext) ∨
      (16384 ≤ (s.core c).scrubNext ∧ (s.core c).spareMap = [(row, (s.core c).scrubNext - 16384)]) →
    exec (.bankScrubRow c errs) s = .next (errs.foldl (fun s e => s.secded c (row * 4 + e.1.toNat) e.2)
      (s.modCore c fun k => { k with scrubNext := (k.scrubNext + 1) % 16416 }))) ∧
  (∀ (c : CoreId) (i : BitVec 2) (s : State), (s.sheds[shedOf c]).retained = false →
    ((s.core c).scrubNext < 16384 ∧ ∃ e ∈ (s.core c).spareMap, e.1 = (s.core c).scrubNext) ∨
      (16384 ≤ (s.core c).scrubNext ∧ ∀ e ∈ (s.core c).spareMap, e.2 ≠ (s.core c).scrubNext - 16384) →
    exec (.bankScrubRow c [(i, false)]) s = .next (s.modCore c fun k => { k with
      scrubNext := (k.scrubNext + 1) % 16416, corr := if k.corr.toNat = 0xFFFF then 0xFFFF else k.corr + 1 })) ∧
  (∀ (c : CoreId) (row : BitVec 14) (s : State),
    ((s.core c).rowFixes.filter fun e => e.1 == row.toNat).length ≤ 4 → exec (.rowRepairTrigger c row) s = .next s) ∧
  (∀ (c : CoreId) (row : BitVec 14) (spare : Nat) (s : State),
    let h := shedOf c
    let n := row.toNat / 128
    let at_ (s : State) (p : Nat) : State := s.modShed h fun k => { k with march := some ⟨c, n, p⟩ }
    let run (failed : List (BitVec 7)) : Instr := .marchStripe c (BitVec.ofNat 7 n) failed []
    let weak := s.modCore c fun k => { k with
      weakRows := k.weakRows ++ [row.toNat], rowFixes := k.rowFixes.filter fun e => e.1 != row.toNat }
    let mapped (t : State) : Prop :=
      spare < 32 ∧ (∀ e ∈ (s.core c).spareMap, e.2 ≠ spare) ∧ spare ∉ (s.core c).deadSpares ∧
      (t.core c).spareMap = (s.core c).spareMap ++ [(row.toNat, spare)] ∧ (t.core c).weakRows = (s.core c).weakRows ∧
      t.mem = s.mem ∧ (t.sheds[h]).march = none ∧ t.steward.nextSeq = s.steward.nextSeq + 1 ∧
      t.steward.log.getLast?.map (fun r => (r.cls, r.sev, r.unit.toNat, r.addr.toNat)) = some (0x05, 1, c.val, 32 * row.toNat)
    (s.sheds[h]).retained = false → 512 ≤ row.toNat → (s.core c).paddockDue = false →
    (∀ e ∈ (s.core c).spareMap, e.1 ≠ row.toNat) → (s.core c).freeSpare = some spare → (∀ r ∈ (s.core c).weakRows, r / 128 ≠ n) →
    (s.sheds[h]).march = none → (s.sheds[h]).marchDue = [] →
    (4 < ((s.core c).rowFixes.filter fun e => e.1 == row.toNat).length → exec (.rowRepairTrigger c row) s = .next (at_ weak 0)) ∧
    (∀ l, exec (run l) s = .next (at_ s 0)) ∧
    (∀ p l, p < 2 → exec (run l) (at_ s p) = .next (at_ s (p + 1))) ∧
    (∀ p, p < 3 → (at_ s p).ccsRead c 0xA08 = BitVec.ofNat 64 (1 + n * 2 + p * 2 ^ 8)) ∧
    (exec (run []) (at_ s 2) = .next (s.modShed h fun k => { k with march := none })) ∧
    (∃ t, exec (run [BitVec.ofNat 7 (row.toNat % 128)]) (at_ s 2) = .next t ∧ mapped t) ∧
    (∃ t, exec (run []) (at_ weak 2) = .next t ∧ mapped t))

/-- A shed none of whose cores has a session, an enabled entry or an open segment enters retention with its caches empty and its cores'
stores performed; a woken shed's running cores have their control stores loaded again and enter vector 0 with cause 2, and nothing of a shed that is awake changes
(10 R270, R271; 18 R438). -/
def Sys2Proof.Claims.ShedRetention : Prop :=
  (∀ (h : ShedId) (s : State), s.mayRetain h = true →
    ∃ t, exec (.shedRetentionEnter h) s = .next t ∧ (t.sheds[h]).retained = true ∧ (t.sheds[h]).l2 = [] ∧
      (t.sheds[h]).keyCache = [] ∧ ∀ c, shedOf c = h → (t.core c).sbuf = []) ∧
  (∀ (h : ShedId) (s : State),
    ((s.sheds[h]).retained = false → exec (.shedWake h) s = .next s) ∧
    ((s.sheds[h]).retained = true → (∀ c, shedOf c = h → s.openSegments c = [] ∧ (s.core c).sbuf = [] ∧
        (s.core c).paddockDue = false) →
      ∃ t, exec (.shedWake h) s = .next t ∧ (t.sheds[h]).retained = false ∧ t.mem = s.mem ∧
        ∀ c, shedOf c = h → (s.core c).run = .running → (t.core c).run = .running ∧ (t.core c).depth = 0 ∧
          (t.core c).pcc = { (s.core c).hpcc with cursor := 0 } ∧ (t.core c).cause.toNat = 2 + 3 * 0x400000 ∧
          (t.core c).cs = some s.imageCs))

/-- Interrupts: where they come from, when one is recognised, which one, and when none is. -/
def Obligations.Interrupts : Prop := Claims.InterruptRecognition ∧ Claims.NoInterruptRecognised ∧ Claims.SignalsAndDetectedExceptions

/-- Stopped cores: the dump, vector 0 and the control store. -/
def Obligations.StopsAndRestarts : Prop := Claims.PaddockDumpAndVectorZero ∧ Claims.ControlStoreErrors

/-- Bank errors, repair, and the retention of sheds. -/
def Obligations.BanksAndRetention : Prop := Claims.BankErrorsAndRepair ∧ Claims.ShedRetention

/-! ## The decimal group -/

namespace Sys2Proof.Claims

/-- put(A, x): the magnitude kept to n digits under the sign of x (05 R139). -/
def kept (n : Nat) (x : Int) : Int := if x < 0 then -((x.natAbs % 10 ^ n : Nat) : Int) else (x.natAbs % 10 ^ n : Nat)

/-- Decimal condition of a value: 0 for zero, 1 below, 2 above (05 Table 5.7). -/
def condition (x : Int) : Nat := if x = 0 then 0 else if x < 0 then 1 else 2

/-- How a decimal instruction that writes `p` is over: FLAGS.DCC and V, the cursors, and under DOVE DECIMAL_OVERFLOW after it
(05 R139, R150, Table 5.7). -/
def decimalEnd (p : State) (c : CoreId) (opc dcc : Nat) (v : Bool) (os : List Opd) : Done where
  s := (p.modCore c fun k => { k with flags := setBit (setDcc k.flags dcc) 2 v }).updateCursors c os
  after := if v = true ∧ (p.core c).status.getLsbD 5 = true then some ⟨10, BitVec.ofNat 16 opc, 3, 0⟩ else none

/-- The packed results of two packed fields: value by 05 Tables 5.5 and 5.6. -/
def packedThree : List ((CoreId → L64 → Instr) × Nat × (Int → Int → Int)) :=
  [(.dadd, 0x100, fun x y => x + y), (.dsub, 0x101, fun x y => x - y), (.dmul, 0x102, fun x y => x * y)]

/-- The packed results of one packed field: DMOV, and DSRD's power of ten, rounded under FPCTL.RM (05 R142). -/
def packedTwo : List ((CoreId → L64 → Instr) × Nat × (L64 → Bool) × (L64 → Nat → Int → Int)) :=
  [(.dmov, 0x104, fun w => rawOpt w == 0, fun _ _ y => y),
   (.dsrd, 0x107, fun _ => true, fun w rm y =>
     let n := (BitVec.ofNat 6 (rawOpt w)).toInt
     if 0 ≤ n then y * 10 ^ n.toNat
     else
       let m : Int := roundDiv rm (decide (y < 0)) y.natAbs (10 ^ (-n).toNat)
       if y < 0 then -m else m)]

end Sys2Proof.Claims

/-- A packed field of l bytes takes put(A, x): l bytes that read back as the kept value, under 0xD when that is negative and 0xC
otherwise; a zoned field reads back the same, an unsigned one as its magnitude; V tells a digit lost (05 R132–R139). -/
def Obligations.DecimalFields : Prop :=
  (∀ (l : Nat) (x : Int), 1 ≤ l →
    let r := reduce (2 * l - 1) x
    let bs := r.packed l
    bs.length = l ∧ packedValue bs = .ok (Claims.kept (2 * l - 1) x) ∧
      (bs.getD (l - 1) 0).toNat % 16 = (if Claims.kept (2 * l - 1) x < 0 then 0xD else 0xC) ∧
      (r.v = true ↔ (10 : Int) ^ (2 * l - 1) ≤ x ∨ x ≤ -10 ^ (2 * l - 1)) ∧ r.cls = Claims.condition (Claims.kept (2 * l - 1) x)) ∧
  (∀ (z : Zoned) (zn l : Nat) (x : Int), 1 ≤ l → zn < 16 → zonedLength z l = none →
    let bs := (reduce (z.digits l) x).zoned z zn l
    let v := Claims.kept (z.digits l) x
    bs.length = l ∧ zonedValue z false zn bs = .ok (if z = .unsigned then (v.natAbs : Int) else v))

/-- The decimal instructions on valid fields: A takes the result of its table, FLAGS its DCC and V, and the instruction is over; an invalid
byte raises DECIMAL_DATA, A's before B's; DDIV by zero, or with a quotient too long, raises DECIMAL_DIVIDE; each fault leaves the fields as
they were (05 R139–R144, R149, R150, Tables 5.5–5.7). CAUSE.OPND 0b11 of a DECIMAL_DIVIDE (log entry 132), BTODW's 16 B operand (45) and the
address of a field fault's byte (17) are the model's choices. -/
def Obligations.DecimalResults : Prop :=
  (∀ e ∈ Claims.packedThree, ∀ (c : CoreId) (w : L64) (s u : State),
    let l := rawL1 w
    let fa := u.field c (fieldA u c w) l
    let fb := u.field c (fieldB u c w) (rawL2 w)
    PassesL s c e.2.1 8 (encWMR (fun w => rawOpt w == 0) fun _ => none) w (fieldUses c w true .pdec .pdec Tag.pdec) u →
    (∀ b, packedValue fa = .error b → exec (e.1 c w) s = .next (s.faulted c 8 (dataExc e.2.1 (fieldA u c w) b) u)) ∧
    (∀ x b, packedValue fa = .ok x → packedValue fb = .error b →
      exec (e.1 c w) s = .next (s.faulted c 8 (dataExc e.2.1 (fieldB u c w) b) u)) ∧
    (∀ x y p, packedValue fa = .ok x → packedValue fb = .ok y →
      let r := reduce (2 * l - 1) (e.2.2 x y)
      u.putField c (fieldA u c w) (r.packed l) Tag.pdec = .ok p →
      exec (e.1 c w) s = .next (s.finished c 8 (Claims.decimalEnd p c e.2.1 r.cls r.v [fieldA u c w, fieldB u c w])))) ∧
  (∀ (c : CoreId) (w : L64) (s u : State) (a b : Int),
    let l := rawL1 w
    let rd := rawOpt w % 16
    let rem := (rawOpt w).testBit 4
    let x : Int := if rem then a.tmod b else
      let q : Int := ((a.natAbs * 10 / b.natAbs + rd) / 10 : Nat)
      if decide (a < 0) = decide (b < 0) then q else -q
    PassesL s c 0x103 8 (encWMR (fun w => rawOpt w < 32 && (!rem || rd == 0)) fun _ => if 9 < rd then some (2, 0xA) else none) w
      (fieldUses c w true .pdec .pdec Tag.pdec) u →
    packedValue (u.field c (fieldA u c w) l) = .ok a → packedValue (u.field c (fieldB u c w) (rawL2 w)) = .ok b →
    (b = 0 → exec (.ddiv c w) s = .next (s.faulted c 8 ⟨11, 0x503, 3, 0⟩ u)) ∧
    (b ≠ 0 → 10 ^ (2 * l - 1) ≤ x.natAbs → exec (.ddiv c w) s = .next (s.faulted c 8 ⟨11, 0x903, 3, 0⟩ u)) ∧
    (∀ p, b ≠ 0 → x.natAbs < 10 ^ (2 * l - 1) →
      let r := reduce (2 * l - 1) x
      u.putField c (fieldA u c w) (r.packed l) Tag.pdec = .ok p →
      exec (.ddiv c w) s = .next (s.finished c 8 (Claims.decimalEnd p c 0x103 r.cls r.v [fieldA u c w, fieldB u c w])))) ∧
  (∀ e ∈ Claims.packedTwo, ∀ (c : CoreId) (w : L64) (s u p : State) (y : Int),
    let l := rawL1 w
    let r := reduce (2 * l - 1) (e.2.2.2 w (getField (u.core c).fpctl 0 3) y)
    PassesL s c e.2.1 8 (encWMR e.2.2.1 fun _ => none) w (fieldUses c w false .pdec .pdec Tag.pdec) u →
    packedValue (u.field c (fieldB u c w) (rawL2 w)) = .ok y →
    u.putField c (fieldA u c w) (r.packed l) Tag.pdec = .ok p →
    exec (e.1 c w) s = .next (s.finished c 8 (Claims.decimalEnd p c e.2.1 r.cls r.v [fieldA u c w, fieldB u c w]))) ∧
  (∀ (c : CoreId) (w : L64) (s u p : State) (y : Int),
    let l := rawL1 w
    let r := reduce (2 * l - 1) y.natAbs
    PassesL s c 0x105 8 (encWMR (fun w => rawOpt w == 0) fun _ => none) w (fieldUses c w false .pdec .pdec Tag.pdec) u →
    packedValue (u.field c (fieldB u c w) (rawL2 w)) = .ok y →
    u.putField c (fieldA u c w) (packedBytes l r.m 0xF) Tag.pdec = .ok p →
    exec (.dmovu c w) s = .next (s.finished c 8 (Claims.decimalEnd p c 0x105 r.cls r.v [fieldA u c w, fieldB u c w]))) ∧
  (∀ (c : CoreId) (w : L64) (s u : State) (x y : Int),
    PassesL s c 0x106 8 { a := .m, b := .m, c := .raw, zero := fun w => rawOpt w == 0 } w
      (fun s => [(fieldA s c w).use true false (rawL1 w) .pdec Tag.bin,
        (fieldB s c w).use true false (rawL2 w) .pdec Tag.bin]) u →
    packedValue (u.field c (fieldA u c w) (rawL1 w)) = .ok x → packedValue (u.field c (fieldB u c w) (rawL2 w)) = .ok y →
    exec (.dcmp c w) s = .next (s.finished c 8 { s := (u.modCore c fun k =>
      { k with flags := setDcc k.flags (Claims.condition (x - y)) }).updateCursors c [fieldA u c w, fieldB u c w] })) ∧
  (∀ e ∈ ([(.dtob, 0x108, 8), (.dtobw, 0x109, 16)] : List ((CoreId → L64 → Instr) × Nat × Nat)),
    ∀ (c : CoreId) (w : L64) (s u p : State) (y : Int),
    let n := e.2.2
    let dst (s : State) := s.resolve c 0 w.sa n
    PassesL s c e.2.1 8 (encToB (n == 16)) w
      (fun s => [(dst s).use false true n .bin Tag.bin, (fieldB s c w).use true false (rawL2 w) .pdec Tag.bin]) u →
    packedValue (u.field c (fieldB u c w) (rawL2 w)) = .ok y →
    u.putValue c (dst u) n ⟨(y % 2 ^ (8 * n)).toNat, Tag.bin, none⟩ = .ok p →
    exec (e.1 c w) s = .next (s.finished c 8 (Claims.decimalEnd p c e.2.1 (Claims.condition y)
      (decide (y < -2 ^ (8 * n - 1) ∨ 2 ^ (8 * n - 1) ≤ y)) [dst u, fieldB u c w]))) ∧
  (∀ e ∈ ([(.btod, 0x10A, 8, .vi), (.btodw, 0x10B, 16, .v)] : List ((CoreId → L64 → Instr) × Nat × Nat × Role)),
    ∀ (c : CoreId) (w : L64) (s u p : State),
    let n := e.2.2.1
    let l := rawL1 w
    let src (s : State) := s.resolve c 1 w.sb n
    let r := reduce (2 * l - 1) (BitVec.ofNat (8 * n) (u.value c (src u) n).v).toInt
    PassesL s c e.2.1 8 { a := .w, b := e.2.2.2, c := .raw, wideB := n == 16, zero := fun w => rawL2 w == 1 && rawOpt w == 0 } w
      (fun s => [(fieldA s c w).use false true l .pdec Tag.pdec, (src s).use true false n .bin Tag.bin]) u →
    u.putField c (fieldA u c w) (r.packed l) Tag.pdec = .ok p →
    exec (e.1 c w) s = .next (s.finished c 8 (Claims.decimalEnd p c e.2.1 r.cls r.v [fieldA u c w, src u]))) ∧
  (∀ (c : CoreId) (w : L64) (s u p : State) (y : Int),
    let z := Zoned.ofSgn (rawOpt w % 4)
    let r := reduce (2 * rawL1 w - 1) y
    PassesL s c 0x10C 8 (encWMR (fun w => rawOpt w < 8) fun w => zonedLength z (rawL2 w)) w
      (fieldUses c w false .pdec .text Tag.pdec) u →
    zonedValue z ((rawOpt w).testBit 2) (u.core c).zn.toNat (u.field c (fieldB u c w) (rawL2 w)) = .ok y →
    u.putField c (fieldA u c w) (r.packed (rawL1 w)) Tag.pdec = .ok p →
    exec (.dpak c w) s = .next (s.finished c 8 (Claims.decimalEnd p c 0x10C r.cls r.v [fieldA u c w, fieldB u c w]))) ∧
  (∀ (c : CoreId) (w : L64) (s u p : State) (y : Int),
    let z := Zoned.ofSgn (rawOpt w % 4)
    let r := reduce (z.digits (rawL1 w)) y
    PassesL s c 0x10D 8 (encWMR (fun w => rawOpt w < 4) fun w => zonedLength z (rawL1 w)) w
      (fieldUses c w false .text .pdec Tag.text) u →
    packedValue (u.field c (fieldB u c w) (rawL2 w)) = .ok y →
    u.putField c (fieldA u c w) (r.zoned z (u.core c).zn.toNat (rawL1 w)) Tag.text = .ok p →
    exec (.dunp c w) s = .next (s.finished c 8 (Claims.decimalEnd p c 0x10D r.cls r.v [fieldA u c w, fieldB u c w]))) ∧
  (∀ (c : CoreId) (w : L64) (s u : State),
    let zoned := (rawOpt w).testBit 0
    let z := Zoned.ofSgn (rawOpt w / 2 % 4)
    let bs := u.field c (fieldA u c w) (rawL1 w)
    let v := if zoned then zonedValue z ((rawOpt w).testBit 3) (u.core c).zn.toNat bs else packedValue bs
    let e : Enc := { a := .m, b := .unused, c := .raw
                     zero := fun w => rawL2 w == 1 && rawOpt w < 16 && (zoned || rawOpt w / 2 == 0)
                     range := fun w => if zoned then zonedLength z (rawL1 w) else none }
    PassesL s c 0x10E 8 e w
      (fun s => [(fieldA s c w).use true false (rawL1 w) (if zoned then .text else .pdec) Tag.bin]) u →
    let dcc := match v with
      | .ok x => Claims.condition x
      | .error _ => 3
    exec (.dtst c w) s = .next (s.finished c 8
      { s := (u.modCore c fun k => { k with flags := setDcc k.flags dcc }).updateCursors c [fieldA u c w] }))

/-! ## The string group -/

/-- The string instructions with their plans and what a zero count leaves (06 R153, R161, R163, R164, R174, R176). -/
def Sys2Proof.Claims.strings : List ((CoreId → L64 → Instr) × (CoreId → L64 → StrPlan) × (L64 → Core → Core)) :=
  let zero (k : Core) (r : BitVec 4) : Core := k.setG r 0 Tag.bin
  let equal (k : Core) : Core := { k with flags := strFlags true false false false k.flags }
  let none_ : L64 → Core → Core := fun _ k => k
  let absent : L64 → Core → Core := fun w k => zero { k with flags := setBit k.flags 0 true } (rawAux w)
  let coded : L64 → Core → Core := fun w k => zero (zero (equal k) (rawAux w)) (rawAux w + 1)
  [(.smov, planSmov, none_), (.smova, planSmova, none_), (.sfil, planSfil, none_), (.smvt, planSmvt, none_),
   (.sxlt, planSxlt, none_), (.scmp, planScmp, fun _ => equal), (.sfnd, planSfnd, absent), (.schk, planSchk, absent),
   (.sxu8, planSxu8, coded), (.sxl1, planSxl1, coded), (.edit, planEdit, none_), (.editm, planEditm, fun w k => zero k (rawAux w)),
   (.scan, planScan, fun w k => zero ((k.setP 6 false).setP 7 false) (rawCount w + 1))]

/-- The state in which a string instruction's first unit makes its reads. -/
def Sys2Proof.Claims.firstUnit (p : StrPlan) (c : CoreId) (w : L64) (u : State) : State :=
  let v := u.startString c p.opc w (p.take u)
  v.readied c (p.unit (p.take u) true v).uses

/-- A string instruction with a count above 0 issues from RESUME 0, its engine not begun, and the checks of its first unit pass. -/
def Sys2Proof.Claims.Begins (p : StrPlan) (c : CoreId) (w : L64) (s u : State) : Prop :=
  let v := u.startString c p.opc w (p.take u)
  let us := (p.unit (p.take u) true v).uses
  Passes s c p.opc 8 w (p.enc.bad w) (guardOf w) (p.check c) (p.issueUses c) u ∧ (u.core c).held = none ∧ (u.core c).resume = 0 ∧
    p.count (u.core c) ≠ 0 ∧ (u.core c).engine = none ∧ v.unitFault c us = none ∧ v.markFault c us = none

/-- A string instruction with a zero count makes no access, writes its zero result and RESUME 0; otherwise it runs its units from RESUME to
its final commit and is over, or takes the fault of the unit that stops it, from the state its commits so far have left; held between units or
for a claim, it goes on with what it took at issue. A PROGRESS_COMMIT leaves it held at its PCC with the grace over and a slot marked as
begun; it commits the first unit of a count that takes more than one: 64 bytes of SFIL, with RESUME.DONE 64 (06 R153, R155, R178–R181; 07
R207; 08 R216; 09 R243; 12 R320). That a held instruction goes on with what it took at issue is the model's choice (log entry 131), and so is
that a PROGRESS_COMMIT performs one unit (44), that a zero count makes no check (39) and that a base routine's words are those of the chapter
(134). -/
def Obligations.StringInstructions : Prop :=
  (∀ e ∈ Claims.strings, ∀ (c : CoreId) (w : L64) (s u : State), let p := e.2.1 c w
    Passes s c p.opc 8 w (p.enc.bad w) (guardOf w) (p.check c) (p.issueUses c) u →
    (∀ i, (u.core c).issued = some i → ∀ d, p.run c i (p.count (u.core c) + 2) false u = .ok d →
      exec (e.1 c w) s = .next (s.finished c 8 d)) ∧
    ((u.core c).issued = none → p.count (u.core c) = 0 → exec (e.1 c w) s = .next (s.finished c 8
      { s := (u.modCore c (e.2.2 w)).modCore c fun k => { k with resume := 0 } })) ∧
    ((u.core c).issued = none → p.count (u.core c) ≠ 0 →
      let i := p.take u
      (∀ d, p.run c i (p.count (u.core c) + 2) true (u.startString c p.opc w i) = .ok d → exec (e.1 c w) s = .next (s.finished c 8 d)) ∧
      ∀ x v, p.run c i (p.count (u.core c) + 2) true (u.startString c p.opc w i) = .error (.exc x v) →
        exec (e.1 c w) s = .next (s.faulted c 8 x v))) ∧
  (∀ (c : CoreId) (op : StrOp) (w : L64) (s t : State), let k := (s.core c).landFp
    s.canIssue c = true → (planOf op c w).commitOne c w s = some t →
    exec (.progressCommit c op w) s = .next t ∧ (t.core c).pcc = k.pcc ∧ (t.core c).depth = k.depth ∧ (t.core c).grace = false ∧
      (t.core c).held.map (·.w) = some w ∧ (t.core c).issued.isSome = true ∧
      (t.core c).delay = k.delay.map fun d => { d with begun := 8 }) ∧
  (∀ (c : CoreId) (op : StrOp) (w : L64) (s u q : State), let p := planOf op c w
    let unit := p.unit (p.take u) true (u.startString c p.opc w (p.take u))
    Claims.Begins p c w s u → unit.final = false → unit.body (Claims.firstUnit p c w u) = .ok q →
    ∃ t, exec (.progressCommit c op w) s = .next t ∧ t.mem = q.mem ∧ t.sheds = q.sheds ∧ (t.core c).resume = (q.core c).resume ∧
      (t.core c).pcc = (s.core c).pcc ∧ (t.core c).banks = (q.core c).banks) ∧
  (∀ (c : CoreId) (w : L64) (s u q : State), let a := strA c w u
    Claims.Begins (planSfil c w) c w s u → 64 < (u.core c).gNat (rawCount w) →
    (Claims.firstUnit (planSfil c w) c w u).writeMem c 0 ⟨a.addr, List.replicate 64 (rawByte w), tagsFor a.addr 64 0x2⟩ = .ok q →
    ∃ t, exec (.progressCommit c .sfil w) s = .next t ∧ t.mem = q.mem ∧ (t.core c).resDone = 64 ∧
      (t.core c).pcc = (s.core c).pcc ∧ (t.core c).grace = false)

/-- What a run of units from RESUME 0 leaves where no engine stands at a word of its own RSM (09 R243): SFIL's n bytes of its own bank all
hold the fill byte and no other byte of the bank changed; SCMP's FLAGS compare the first unequal position, B padded from its length on; SFND
and SCHK give the first byte in the class, and the first outside it; each ends with RESUME 0 (06 R158, R161–R163, R181). That the engine's own
words are the chapter's is the model's choice (log entry 134). -/
def Obligations.StringResults : Prop :=
  (∀ (c : CoreId) (w : L64) (u : State) (d : Done) (cap : Cap) (a : Int),
    let n := (u.core c).gNat (rawCount w)
    (strA c w u).place = .mem cap a → 0 ≤ a → a.toNat + n ≤ 0x80000 → n ≠ 0 → (u.core c).resume = 0 → (u.core c).engine = none →
    (planSfil c w).run c ((planSfil c w).take u) (n + 2) true u = .ok d →
    (d.s.core c).resume = 0 ∧
    ∀ i, i < 0x80000 → d.s.mem.byte (bankKey c i) =
      if a.toNat ≤ i ∧ i < a.toNat + n then rawByte w else u.mem.byte (bankKey c i)) ∧
  (∀ (c : CoreId) (w : L64) (u : State) (d : Done),
    let n := (u.core c).gNat (rawCount w)
    let lb := min n ((u.core c).gNat (rawAux w))
    let x (i : Nat) := (u.bytesSeen c (strA c w u).addr n).getD i 0
    let y (i : Nat) := if i < lb then (u.bytesSeen c (strB c w u).addr lb).getD i 0 else rawByte w
    n ≠ 0 → n < 2 ^ 48 → (u.core c).resume = 0 → (u.core c).engine = none →
    (planScmp c w).run c ((planScmp c w).take u) (n + 2) true u = .ok d →
    (d.s.core c).resume = 0 ∧ d.s.mem = u.mem ∧
    ((∀ i, i < n → x i = y i) → (d.s.core c).flags = strFlags true false false false (u.core c).flags) ∧
    ∀ i, i < n → x i ≠ y i → (∀ j, j < i → x j = y j) →
      (d.s.core c).flags = strFlags false (decide ((x i).toNat < (y i).toNat)) false false (u.core c).flags) ∧
  (∀ e ∈ ([(planSfnd, true), (planSchk, false)] : List ((CoreId → L64 → StrPlan) × Bool)),
    ∀ (c : CoreId) (w : L64) (u : State) (d : Done),
    let n := (u.core c).gNat (rawCount w)
    let map := u.bytesSeen c (strB c w u).addr 32
    let hit (i : Nat) := inClass map ((u.bytesSeen c (strA c w u).addr n).getD i 0) == e.2
    n ≠ 0 → n < 2 ^ 48 → (u.core c).resume = 0 → (u.core c).engine = none →
    (e.1 c w).run c ((e.1 c w).take u) (n + 2) true u = .ok d →
    (d.s.core c).resume = 0 ∧ d.s.mem = u.mem ∧
    ((∀ i, i < n → hit i = false) → (d.s.core c).flags.getLsbD 0 = true ∧
      (d.s.core c).getG (rawAux w) = ⟨BitVec.ofNat 64 n, 0, none⟩) ∧
    ∀ i, i < n → hit i = true → (∀ j, j < i → hit j = false) → (d.s.core c).flags.getLsbD 0 = false ∧
      (d.s.core c).getG (rawAux w) = ⟨BitVec.ofNat 64 i, 0, none⟩)

/-- UTF-8 of a Latin-1 byte (06 R164). -/
def Sys2Proof.Claims.utf8 (x : Byte) : List Byte := if x.toNat < 0x80 then [x] else [0xC0 + x >>> 6, 0x80 + (x &&& 0x3F)]

/-- What the string instructions do where one unit of 64 bytes is all: SMOV copies byte by byte, reading back what it has written, SMOVA as if
from a copy of the source, SFIL fills, SMVT and SXLT look each byte up; SCMP, SFND and SCHK tell the first position; SXU8 writes the UTF-8 of
Latin-1 bytes, and SXL1 reads such text back; EDIT and EDITM write the pattern edited; SCAN gives the value of a text. Each is then over with
RESUME 0 (06 R156–R176, R181). The tags of moved units (log entries 35, 167), the direction of SMOVA (36), the ends of transcoded units (38),
the currency and the parse of SCAN (42, 43), the zero line of the worked example (41) and a resumed EDIT (133, 168) are the model's choices
where the chapter is silent. -/
def Obligations.StringsOfOneUnit : Prop :=
  ∀ (c : CoreId) (w : L64) (s u : State),
    let a := strA c w u
    let b := strB c w u
    let n := (u.core c).gNat (rawCount w)
    let aux := rawAux w
    let start (p : StrPlan) : State := u.startString c p.opc w (p.take u)
    let ends (q : State) (os : List Opd) : Host.Outcome State Fault Refusal :=
      .next (s.finished c 8 { s := (q.updateCursors c os).modCore c fun k => { k with resume := 0 } })
    let text (p : StrPlan) (bs : List Byte) : Except Stop State :=
      (Claims.firstUnit p c w u).writeMem c 0 ⟨a.addr, bs, tagsFor a.addr bs.length 0x2⟩
    let read (p : StrPlan) (at_ k : Nat) (j : Nat) : Byte := ((start p).bytesSeen c at_ k).getD j 0
    let flags (z n v cf : Bool) (k : Core) : Core := { k with flags := strFlags z n v cf k.flags }
    n ≤ 64 →
    (Claims.Begins (planSmov c w) c w s u → ∀ bs q,
      let t := Claims.firstUnit (planSmov c w) c w u
      bs.length = n → (∀ j, j < n → let p := t.key c (b.addr + j)
        bs.getD j 0 = if t.key c a.addr ≤ p ∧ p < t.key c a.addr + j then bs.getD (p - t.key c a.addr) 0
          else (t.bytesSeen c b.addr n).getD j 0) →
      t.writeMem c 0 ⟨a.addr, bs, (start (planSmov c w)).movedTags c ⟨a.addr, b.addr, n, b.addr, a.addr, n, moveCaps a b, true, false⟩⟩
        = .ok q → exec (.smov c w) s = ends q [a, b]) ∧
    (Claims.Begins (planSmova c w) c w s u → ∀ q,
      let t := Claims.firstUnit (planSmova c w) c w u
      t.writeMem c 0 ⟨a.addr, t.bytesSeen c b.addr n, (start (planSmova c w)).movedTags c
        ⟨a.addr, b.addr, n, b.addr, a.addr, n, moveCaps a b, false, decide (b.addr < a.addr ∧ a.addr < b.addr + n)⟩⟩ = .ok q →
      exec (.smova c w) s = ends q [a, b]) ∧
    (Claims.Begins (planSfil c w) c w s u → ∀ q, text (planSfil c w) (List.replicate n (rawByte w)) = .ok q →
      exec (.sfil c w) s = ends q [a]) ∧
    (Claims.Begins (planSmvt c w) c w s u → ∀ bs q,
      let t := Claims.firstUnit (planSmvt c w) c w u
      let table := u.bytesSeen c (((u.core c).getC aux).cursor.toNat) 256
      bs.length = n → (∀ j, j < n → let p := t.key c (b.addr + j)
        bs.getD j 0 = table.getD (if t.key c a.addr ≤ p ∧ p < t.key c a.addr + j then bs.getD (p - t.key c a.addr) 0
          else (t.bytesSeen c b.addr n).getD j 0).toNat 0) →
      text (planSmvt c w) bs = .ok q → exec (.smvt c w) s = ends q [a, b]) ∧
    (Claims.Begins (planSxlt c w) c w s u → ∀ q,
      let t := Claims.firstUnit (planSxlt c w) c w u
      text (planSxlt c w) ((t.bytesSeen c a.addr n).map fun x => (u.bytesSeen c b.addr 256).getD x.toNat 0) = .ok q →
      exec (.sxlt c w) s = ends q [a, b]) ∧
    (Claims.Begins (planScmp c w) c w s u →
      let t := Claims.firstUnit (planScmp c w) c w u
      let lb := min n ((u.core c).gNat aux)
      let x := read (planScmp c w) a.addr n
      let y (i : Nat) : Byte := if i < lb then read (planScmp c w) b.addr lb i else rawByte w
      ((∀ i, i < n → x i = y i) → exec (.scmp c w) s = ends (t.modCore c (flags true false false false)) [a, b]) ∧
      ∀ i, i < n → x i ≠ y i → (∀ j, j < i → x j = y j) →
        exec (.scmp c w) s = ends (t.modCore c (flags false (decide ((x i).toNat < (y i).toNat)) false false)) [a, b]) ∧
    (∀ e ∈ ([(.sfnd, planSfnd, true), (.schk, planSchk, false)] :
        List ((CoreId → L64 → Instr) × (CoreId → L64 → StrPlan) × Bool)), Claims.Begins (e.2.1 c w) c w s u →
      let t := Claims.firstUnit (e.2.1 c w) c w u
      let map := u.bytesSeen c b.addr 32
      let hit (i : Nat) : Bool := inClass map (read (e.2.1 c w) a.addr n i) == e.2.2
      let found (z : Bool) (r : Nat) : State :=
        t.modCore c fun k => { k with flags := setBit k.flags 0 z }.setG aux (BitVec.ofNat 64 r) 0
      ((∀ i, i < n → hit i = false) → exec (e.1 c w) s = ends (found true n) [a, b]) ∧
      ∀ i, i < n → hit i = true → (∀ j, j < i → hit j = false) → exec (e.1 c w) s = ends (found false i) [a, b]) ∧
    (let counted (q : State) (nd : Nat) : State := (q.modCore c fun k => k.setG (aux + 1) (BitVec.ofNat 64 n) 0).modCore c fun k =>
       (flags true false false false k).setG aux (BitVec.ofNat 64 nd) 0
     (Claims.Begins (planSxu8 c w) c w s u → n ≤ 32 → 2 * n ≤ (u.core c).gNat aux → ∀ q,
       let out := ((start (planSxu8 c w)).bytesSeen c b.addr n).flatMap Claims.utf8
       text (planSxu8 c w) out = .ok q → exec (.sxu8 c w) s = ends (counted q out.length) [a, b]) ∧
     (Claims.Begins (planSxl1 c w) c w s u → ∀ l q, (start (planSxl1 c w)).bytesSeen c b.addr n = l.flatMap Claims.utf8 →
       l.length ≤ (u.core c).gNat aux → text (planSxl1 c w) l = .ok q →
       exec (.sxl1 c w) s = ends (counted q l.length) [a, b])) ∧
    (let pat := u.bytesSeen c a.addr n
     let sels := (pat.filter fun x => x == 0x10 || x == 0x11).length
     let k := u.core c
     ∀ v, packedValue (u.bytesSeen c b.addr (editLen w)) = .ok v → (∀ x ∈ pat, x ≠ 0x16 ∧ x ≠ 0x17) → sels ≤ 63 →
     let env : EditEnv :=
       { digit := fun j => if sels ≤ j + (2 * editLen w - 1) then v.natAbs / 10 ^ (sels - 1 - j) % 10 else 0
         neg := decide (v < 0), fill := k.fill, zn := k.zn.toNat, cur := k.currencyText }
     let st := editRun env 0 ⟨0, true, 0, none, [], 0, none⟩ pat
     let flagged (q : State) : State := q.modCore c fun k =>
       { k with flags := setBit (setDcc k.flags (Claims.condition v)) 2 (decide (10 ^ sels ≤ v.natAbs)) }
     (Claims.Begins (planEdit c w) c w s u → ∀ q, text (planEdit c w) st.out = .ok q →
       exec (.edit c w) s = ends (flagged q) [a, b]) ∧
     (Claims.Begins (planEditm c w) c w s u → ∀ q, text (planEditm c w) st.out = .ok q →
       exec (.editm c w) s = ends (flagged (q.modCore c fun k => k.setG aux (BitVec.ofNat 64 (st.amount.getD n)) 0)) [a, b])) ∧
    (Claims.Begins (planScan c w) c w s u →
      let t := Claims.firstUnit (planScan c w) c w u
      let k := u.core c
      let l := editLen w
      let pat := u.bytesSeen c (((u.core c).getC aux).cursor.toNat) n
      let sels := (pat.filter fun x => x == 0x10 || x == 0x11).length
      let env : ScanEnv :=
        { text := u.bytesSeen c b.addr (k.gNat (rawCount w + 1)), fill := k.fill, zn := k.zn.toNat, cur := k.currencyText
          grp := w.sc.getLsbD 5, spc := w.sc.getLsbD 6, lz := w.sc.getLsbD 7, digits := 2 * l - 1, sels := sels }
      let done_ (q : State) (p6 p7 : Bool) : State :=
        q.modCore c fun x => ((x.setP 6 p6).setP 7 p7).setG (rawCount w + 1) (BitVec.ofNat 64 (env.answer pat).2) 0
      (∀ x ∈ pat, x ≠ 0x16 ∧ x ≠ 0x17) → sels ≤ 63 →
      ((env.answer pat).1 = none → exec (.scan c w) s = ends (done_ t false false) [a, b]) ∧
      ∀ v q, (env.answer pat).1 = some v → t.writeMem c 0 ⟨a.addr, (reduce (2 * l - 1) v).packed l,
          tagsFor a.addr ((reduce (2 * l - 1) v).packed l).length 0x1⟩ = .ok q →
        exec (.scan c w) s = ends (done_ q true (decide (v < 0))) [a, b])

/-! ## The floating-point group -/

namespace Sys2Proof.Claims

/-- How a floating-point instruction with result `v` and exceptions `fl` is over: the highest-priority exception that is enabled is
raised with nothing written; with none of the enables set a result for a register that is not long stays due, with its sticky flags;
any other is written at once (04 R125, R129). -/
def FloatEnds (i : Instr) (opc : Nat) (long : Bool) (c : CoreId) (s u : State) (fl : FpFlags) (o : Opd) (n v : Nat) (t : Tag)
    (os : List Opd) : Prop :=
  let ens : BitVec 5 := (u.core c).fpctl.extractLsb' 3 5
  let on := fl.bits &&& ens
  let vec : Nat := if on.getLsbD 0 then 14 else if on.getLsbD 1 then 15 else if on.getLsbD 2 then 16 else
    if on.getLsbD 3 then 17 else 18
  (on ≠ 0 → exec i s = .next (s.faulted c 8 ⟨Fin.ofNat 64 vec, BitVec.ofNat 16 opc, 3, 0⟩ u)) ∧
  (∀ r, o.place = .reg r → long = false → ens = 0 → exec i s = .next (s.finished c 8 { s := (u.modCore c fun k =>
    { k with fpq := k.fpq ++ [⟨k.depth, r, n == 16, BitVec.ofNat 128 v, t, fl.bits⟩] }).updateCursors c os })) ∧
  (∀ p, on = 0 → (long = true ∨ ens ≠ 0 ∨ ∀ r, o.place ≠ .reg r) → u.putValue c o n ⟨v, t, none⟩ = .ok p →
    exec i s = .next (s.finished c 8 { s := (p.modCore c fun k =>
      { k with fpctl := k.fpctl ||| (fl.bits.setWidth 64 <<< 8) }).updateCursors c os }))

/-- The instructions of two operands of a format (04 Table 4.7). -/
def floatThree : List ((CoreId → L64 → Instr) × Fmt × Nat × Bool × (FpEnv → Fp → Fp → FpRes)) :=
  [(.fadd, .b64, 0x200, false, Fmt.b64.add), (.fsub, .b64, 0x201, false, fun e x y => Fmt.b64.add e x y.minus),
   (.fmul, .b64, 0x202, false, Fmt.b64.mul), (.fdiv, .b64, 0x203, true, Fmt.b64.div),
   (.dfadd, .d64, 0x210, false, Fmt.d64.add), (.dfsub, .d64, 0x211, false, fun e x y => Fmt.d64.add e x y.minus),
   (.dfmul, .d64, 0x212, false, Fmt.d64.mul), (.dfdiv, .d64, 0x213, true, Fmt.d64.div),
   (.dfqua, .d64, 0x21C, false, Fmt.d64.quantize),
   (.dqadd, .d128, 0x220, false, Fmt.d128.add), (.dqsub, .d128, 0x221, false, fun e x y => Fmt.d128.add e x y.minus),
   (.dqmul, .d128, 0x222, false, Fmt.d128.mul), (.dqdiv, .d128, 0x223, true, Fmt.d128.div),
   (.dqqua, .d128, 0x22C, false, Fmt.d128.quantize)]

/-- The instructions of one operand, from one format to another. -/
def floatTwo : List ((CoreId → L64 → Instr) × Fmt × Fmt × Nat × Bool × (FpEnv → Fp → FpRes)) :=
  [(.fsqrt, .b64, .b64, 0x204, true, Fmt.b64.sqrt), (.frnd, .b64, .b64, 0x20B, false, Fmt.b64.rnd),
   (.dfsqrt, .d64, .d64, 0x214, true, Fmt.d64.sqrt), (.dfrnd, .d64, .d64, 0x21B, false, Fmt.d64.rnd),
   (.dqsqrt, .d128, .d128, 0x224, true, Fmt.d128.sqrt), (.dqrnd, .d128, .d128, 0x22B, false, Fmt.d128.rnd),
   (.ftodf, .b64, .d64, 0x230, false, Fmt.convert .b64 .d64), (.dftof, .d64, .b64, 0x231, false, Fmt.convert .d64 .b64),
   (.dftodq, .d64, .d128, 0x232, false, Fmt.convert .d64 .d128), (.dqtodf, .d128, .d64, 0x233, false, Fmt.convert .d128 .d64),
   (.ftodq, .b64, .d128, 0x234, false, Fmt.convert .b64 .d128), (.dqtof, .d128, .b64, 0x235, false, Fmt.convert .d128 .b64)]

end Sys2Proof.Claims

/-- The floating-point instructions end as `FloatEnds` says with the result of 04 Table 4.7 on their operands as FTZ takes them: the
arithmetic, fused multiply-add, root, rounding, conversion and quantize forms; FABS and FNEG, which change the sign bit alone; the integer
conversions, which round to the nearest integer the format allows or are invalid; FCLASS's mask of the operand as stored (04 R120, R123–R126,
R128, R129, Table 4.7). The zeros of FTZ (log entry 46), preferred exponents that the table does not give (47), NaN payloads (48) and when a
result stays due (49) are the model's choices. -/
def Obligations.FloatResults : Prop :=
  (∀ e ∈ Claims.floatThree, ∀ (c : CoreId) (w : L64) (s u : State),
    let f := e.2.1
    let n := f.bytes
    let r := e.2.2.2.2 (u.core c).fpEnv (u.fpValue c f (fpB c w n u)) (u.fpValue c f (fpC c w n u))
    PassesL s c e.2.2.1 8 { a := .d, b := .v, c := .v, wideA := f.wide, wideB := f.wide, wideC := f.wide } w
      (fun s => [fpDest f (fpA c w n s), fpSource f (fpB c w n s), fpSource f (fpC c w n s)]) u →
    Claims.FloatEnds (e.1 c w) e.2.2.1 e.2.2.2.1 c s u r.fl (fpA c w n u) n (f.encode r.v) f.tag
      [fpA c w n u, fpB c w n u, fpC c w n u]) ∧
  (∀ e ∈ Claims.floatTwo, ∀ (c : CoreId) (w : L64) (s u : State),
    let f := e.2.1
    let g := e.2.2.1
    let r := e.2.2.2.2.2 (u.core c).fpEnv (u.fpValue c f (fpB c w f.bytes u))
    PassesL s c e.2.2.2.1 8 { a := .d, b := .v, c := .unused, wideA := g.wide, wideB := f.wide } w
      (fun s => [fpDest g (fpA c w g.bytes s), fpSource f (fpB c w f.bytes s)]) u →
    Claims.FloatEnds (e.1 c w) e.2.2.2.1 e.2.2.2.2.1 c s u r.fl (fpA c w g.bytes u) g.bytes (g.encode r.v) g.tag
      [fpA c w g.bytes u, fpB c w f.bytes u]) ∧
  (∀ e ∈ ([(.fma, .b64, 0x205), (.dfma, .d64, 0x215), (.dqfma, .d128, 0x225)] : List ((CoreId → L64 → Instr) × Fmt × Nat)),
    ∀ (c : CoreId) (w : L64) (s u : State),
    let f := e.2.1
    let n := f.bytes
    let r := f.fma (u.core c).fpEnv (u.fpValue c f (fpA c w n u)) (u.fpValue c f (fpB c w n u)) (u.fpValue c f (fpC c w n u))
    PassesL s c e.2.2 8 { a := .u, b := .v, c := .v, wideA := f.wide, wideB := f.wide, wideC := f.wide } w
      (fun s => [(fpA c w n s).use true true n f.cls f.tag, fpSource f (fpB c w n s), fpSource f (fpC c w n s)]) u →
    Claims.FloatEnds (e.1 c w) e.2.2 false c s u r.fl (fpA c w n u) n (f.encode r.v) f.tag
      [fpA c w n u, fpB c w n u, fpC c w n u]) ∧
  (∀ e ∈ ([(.fabs, .b64, 0x207, false), (.fneg, .b64, 0x208, true), (.dfabs, .d64, 0x217, false), (.dfneg, .d64, 0x218, true),
        (.dqabs, .d128, 0x227, false), (.dqneg, .d128, 0x228, true)] : List ((CoreId → L64 → Instr) × Fmt × Nat × Bool)),
    ∀ (c : CoreId) (w : L64) (s u : State),
    let f := e.2.1
    let n := f.bytes
    let v := (u.value c (fpB c w n u) n).v
    let top := 2 ^ (8 * n - 1)
    PassesL s c e.2.2.1 8 { a := .d, b := .v, c := .unused, wideA := f.wide, wideB := f.wide } w
      (fun s => [fpDest f (fpA c w n s), fpSource f (fpB c w n s)]) u →
    Claims.FloatEnds (e.1 c w) e.2.2.1 false c s u {} (fpA c w n u) n
      (v % top + if e.2.2.2 = true ∧ v < top then top else 0) f.tag [fpA c w n u, fpB c w n u]) ∧
  (∀ e ∈ ([(.ffromi, .b64, 0x209), (.dffromi, .d64, 0x219), (.dqfromi, .d128, 0x229)] :
      List ((CoreId → L64 → Instr) × Fmt × Nat)), ∀ (c : CoreId) (w : L64) (s u : State),
    let f := e.2.1
    let n := f.bytes
    let r := f.fromInt (u.core c).fpEnv (u.value c (fpB c w 8 u) 8).w.toInt
    PassesL s c e.2.2 8 { a := .d, b := .vi, c := .unused, wideA := f.wide } w
      (fun s => [fpDest f (fpA c w n s), (fpB c w 8 s).source]) u →
    Claims.FloatEnds (e.1 c w) e.2.2 false c s u r.fl (fpA c w n u) n (f.encode r.v) f.tag [fpA c w n u, fpB c w 8 u]) ∧
  (∀ e ∈ ([(.ftoi, .b64, 0x20A, true), (.dftoi, .d64, 0x21A, true), (.dqtoi, .d128, 0x22A, true), (.fclass, .b64, 0x20D, false),
        (.dfclass, .d64, 0x21D, false), (.dqclass, .d128, 0x22D, false)] : List ((CoreId → L64 → Instr) × Fmt × Nat × Bool)),
    ∀ (c : CoreId) (w : L64) (s u : State),
    let f := e.2.1
    let n := f.bytes
    let x := f.decode (u.value c (fpB c w n u) n).v
    let least : Int := -2 ^ 63
    let most : Int := 2 ^ 63 - 1
    let r : Int × FpFlags := if e.2.2.2 then f.toInt (u.core c).fpEnv least most least most least (f.flush (u.core c).fpEnv x)
      else ((f.classMask x : Int), {})
    PassesL s c e.2.2.1 8 { a := .d, b := .v, c := .unused, wideB := f.wide } w
      (fun s => [(fpA c w 8 s).dest, fpSource f (fpB c w n s)]) u →
    Claims.FloatEnds (e.1 c w) e.2.2.1 false c s u r.2 (fpA c w 8 u) 8 (BitVec.ofInt 64 r.1).toNat Tag.bin
      [fpA c w 8 u, fpB c w n u]) ∧
  (∀ (c : CoreId) (w : L64) (s u : State) (v : Int),
    PassesL s c 0x236 8 { a := .d, b := .v, c := .unused, wideA := true, wideB := true } w
      (fun s => [fpDest .d128 (fpA c w 16 s), (fpB c w 16 s).use true false 16 .pdec Tag.bin]) u →
    packedValue (toLe 16 (u.value c (fpB c w 16 u) 16).v) = .ok v →
    Claims.FloatEnds (.ptodq c w) 0x236 false c s u {} (fpA c w 16 u) 16
      (Fmt.d128.encode (.fin (decide (v < 0)) v.natAbs 0)) Tag.d128 [fpA c w 16 u, fpB c w 16 u]) ∧
  (∀ (c : CoreId) (w : L64) (s u : State),
    let top : Int := 10 ^ 31 - 1
    let r := Fmt.d128.toInt (u.core c).fpEnv (-top) top (-top) top top (u.fpValue c .d128 (fpB c w 16 u))
    PassesL s c 0x237 8 { a := .d, b := .v, c := .unused, wideA := true, wideB := true } w
      (fun s => [(fpA c w 16 s).use false true 16 .pdec Tag.pdec, fpSource .d128 (fpB c w 16 s)]) u →
    Claims.FloatEnds (.dqtop c w) 0x237 false c s u r.2 (fpA c w 16 u) 16 (leNat ((reduce 31 r.1).packed 16)) Tag.pdec
      [fpA c w 16 u, fpB c w 16 u]) ∧
  (∀ (c : CoreId) (s : State) (d : FpDue) (rest : List FpDue), (s.core c).fpq = d :: rest → ∃ t,
    exec (.fpResultWritten c) s = .next t ∧ (t.core c).fpq = rest ∧ t.mem = s.mem ∧
    (t.core c).fpctl = (s.core c).fpctl ||| (d.sticky.setWidth 64 <<< 8) ∧
    (d.reg ≠ 0 → ((t.core c).banks[d.bank]).g[d.reg.toNat]'d.reg.isLt = ⟨d.val.extractLsb' 0 64, d.tag, none⟩))

/-- FCMP, DFCMP and DQCMP set Z, N and V to equal, less and unordered, clear C, and signal invalid for a signalling NaN; finite data
compare as the exact numbers they stand for, infinities beyond them, and a NaN with nothing (04 R127). -/
def Obligations.FloatCompare : Prop :=
  (∀ e ∈ ([(.fcmp, .b64, 0x206), (.dfcmp, .d64, 0x216), (.dqcmp, .d128, 0x226)] : List ((CoreId → L64 → Instr) × Fmt × Nat)),
    ∀ (c : CoreId) (w : L64) (s u : State),
    let f := e.2.1
    let n := f.bytes
    let q := f.compare (u.fpValue c f (fpA c w n u)) (u.fpValue c f (fpB c w n u))
    PassesL s c e.2.2 8 { a := .v, b := .v, c := .unused, wideA := f.wide, wideB := f.wide } w
      (fun s => [fpSource f (fpA c w n s), fpSource f (fpB c w n s)]) u →
    (q.2.2.2.bits &&& (u.core c).fpctl.extractLsb' 3 5 ≠ 0 →
      exec (e.1 c w) s = .next (s.faulted c 8 ⟨14, BitVec.ofNat 16 e.2.2, 3, 0⟩ u)) ∧
    (q.2.2.2.bits &&& (u.core c).fpctl.extractLsb' 3 5 = 0 → ∃ t : State,
      exec (e.1 c w) s = .next (s.finished c 8 { s := t.updateCursors c [fpA c w n u, fpB c w n u] }) ∧
      (t.core c).flags.getLsbD 0 = q.1 ∧ (t.core c).flags.getLsbD 1 = q.2.1 ∧ (t.core c).flags.getLsbD 2 = q.2.2.1 ∧
      (t.core c).flags.getLsbD 3 = false ∧ (∀ i, 4 ≤ i → (t.core c).flags.getLsbD i = (u.core c).flags.getLsbD i) ∧
      (t.core c).fpctl = (u.core c).fpctl ||| (q.2.2.2.bits.setWidth 64 <<< 8) ∧ t.mem = u.mem ∧ (t.core c).banks = (u.core c).banks)) ∧
  (∀ (f : Fmt) (n1 n2 : Bool) (m1 m2 d1 d2 : Nat) (q : Int),
    let x : Int := (if n1 then -1 else 1) * (m1 * f.radix ^ d1 : Nat)
    let y : Int := (if n2 then -1 else 1) * (m2 * f.radix ^ d2 : Nat)
    f.compare (.fin n1 m1 (q + d1)) (.fin n2 m2 (q + d2)) = (decide (x = y), decide (x < y), false, {})) ∧
  (∀ (f : Fmt) (n1 n2 : Bool) (m : Nat) (q : Int),
    f.compare (.inf n1) (.inf n2) = (n1 == n2, n1 && !n2, false, {}) ∧ f.compare (.inf n1) (.fin n2 m q) = (false, n1, false, {}) ∧
    f.compare (.fin n2 m q) (.inf n1) = (false, !n1, false, {})) ∧
  (∀ (f : Fmt) (neg sg : Bool) (p : Nat) (x : Fp),
    let r := f.compare (.nan neg sg p) x
    let l := f.compare x (.nan neg sg p)
    r.1 = false ∧ r.2.1 = false ∧ r.2.2.1 = true ∧ l.1 = false ∧ l.2.1 = false ∧ l.2.2.1 = true ∧
      ((∀ n q, x ≠ .nan n true q) → r.2.2.2 = { iv := sg } ∧ l.2.2.2 = { iv := sg }) ∧
      (∀ n q, x = .nan n true q → r.2.2.2 = { iv := true } ∧ l.2.2.2 = { iv := true }))

/-- The formats: a canonical datum read back from its encoding is itself, and the encodings of the three formats fit their widths (04
R118–R120, Table 4.5). The canonical payload of a decimal NaN is the model's choice (log entry 48). -/
def Obligations.FloatEncodings : Prop :=
  ∀ f : Fmt,
    (∀ (neg : Bool) (m : Nat) (q : Int), m < f.radix ^ f.prec → f.qmin ≤ q → q ≤ f.qmax →
      (f = .b64 → m < 2 ^ 52 → q = f.qmin) →
      f.decode (f.encode (.fin neg m q)) = .fin neg m q ∧ f.encode (.fin neg m q) < 2 ^ (8 * f.bytes)) ∧
    (∀ neg, f.decode (f.encode (.inf neg)) = .inf neg ∧ f.encode (.inf neg) < 2 ^ (8 * f.bytes)) ∧
    ∀ (neg sg : Bool) (p : Nat), p < f.payloads → (sg = true → f = .b64 → p ≠ 0) →
      f.decode (f.encode (.nan neg sg p)) = .nan neg sg p ∧ f.encode (.nan neg sg p) < 2 ^ (8 * f.bytes)

/-- An exact positive number is rounded once: where nothing overflows and no tiny result is flushed, the result is a datum m × bᵠ of the
format; it signals inexact just where it differs from the number; where it does, m has full precision or q is the least exponent, and m lies
on the side of the number that FPCTL.RM asks for, no further than half a unit to nearest and less than one unit else. The bound on the number
takes in every intermediate of the three formats (04 R121–R123; 02 Table 2.4). The exponent of a zero that FTZ leaves is the model's choice
(log entry 46); no clause here rests on it. -/
def Obligations.FloatRoundsOnce : Prop :=
  ∀ (f : Fmt) (env : FpEnv) (neg : Bool) (x : Rat0) (pref : Int),
    0 < x.num → 0 < x.den → x.num < 2 ^ 150000 → x.den < 2 ^ 150000 → env.rm ≤ 4 →
    let r := f.round env neg x pref
    r.fl.of = false → (r.fl.uf = true → env.ftz = false) →
    ∃ (m : Nat) (q : Int), r.v = .fin neg m q ∧ m < f.radix ^ f.prec ∧ f.qmin ≤ q ∧ q ≤ f.qmax ∧
      let y := x.shift f.radix q
      (r.fl.ix = false ↔ m * y.den = y.num) ∧
      (r.fl.ix = true → q = f.qmin ∨ f.radix ^ (f.prec - 1) ≤ m) ∧
      (env.rm ≤ 1 → 2 * (m * y.den) ≤ 2 * y.num + y.den ∧ 2 * y.num ≤ 2 * (m * y.den) + y.den) ∧
      (env.rm = 2 ∨ (env.rm = 3 ∧ neg = true) ∨ (env.rm = 4 ∧ neg = false) → m * y.den ≤ y.num ∧ y.num < (m + 1) * y.den) ∧
      ((env.rm = 3 ∧ neg = false) ∨ (env.rm = 4 ∧ neg = true) → y.num ≤ m * y.den ∧ m * y.den < y.num + y.den)

/-! ## The yards -/

/-- Reads of a line once the yards serve: without a flipped bit nothing changes; a parity chunk put right, or one bad data chunk that its
check finds, counts as one correction, the data chunk with its line recalled and its channel marked. With words left unknown their data
become zero and their tags POISON, but for words an L2 holds dirty; the other words are delivered as stored, where no L2 holds them;
PCOUNT goes up by one and one DATA_LOSS record is logged (11 R291–R297, Table 11.4; 10 Table 10.7). That memory takes words delivered as
stored only where no L2 holds the line is the model's choice (log entry 137). -/
def Sys2Proof.Claims.YardLineReads : Prop :=
  (∀ (y : Yard) (n : YLine) (s : State), exec (.lineRead y n []) s = .next s ∧
    ∀ (pos : Fin 10) (flips : BitVec 256), 3 ≤ s.steward.stage → (s.yard y).lost n.toNat = false →
      (s.yard y).missingAt n.toNat = none → flips ≠ 0 →
      (∀ w, w < 32 → storedTag (s.mem.tagAt (yardLineAddr y n.toNat + 8 * w)) = s.mem.tagAt (yardLineAddr y n.toNat + 8 * w)) →
      (roleAt n.toNat pos.val = 0 →
        exec (.lineRead y n [⟨pos, flips⟩]) s = .next (s.modYard y fun k => { k with corrections := k.corrections + 1 })) ∧
      (2 ≤ roleAt n.toNat pos.val → (s.readOutcome y n [⟨pos, flips⟩]).fails ≠ [] →
        ∃ t, exec (.lineRead y n [⟨pos, flips⟩]) s = .next t ∧ t.mem = s.mem ∧
          (t.yard y).corrections = (s.yard y).corrections + 1 ∧ ((s.yard y).posMap[pos], n.toNat, s.timer) ∈ (t.yard y).fails ∧
          ∀ i, i < 4 → t.dirOf (lineId (yardLineAddr y n.toNat + 64 * i)) = none)) ∧
  (∀ (y : Yard) (n : YLine) (errs : List ChunkError) (s : State),
    let o := s.readOutcome y n errs
    let m := o.unknown
    let a := yardLineAddr y n.toNat
    let held (w : Nat) : Bool := (s.dirOf (lineId (a + 8 * w))).isSome
    errs ≠ [] → 3 ≤ s.steward.stage → (s.yard y).lost n.toNat = false → m ≠ 0 → ∃ t, exec (.lineRead y n errs) s = .next t ∧
      (∀ w, w < 32 → m.testBit w = true → s.dirty (a + 8 * w) = false →
        (∀ i, i < 8 → t.mem.byte (a + 8 * w + i) = 0) ∧ t.mem.tagAt (a + 8 * w) = 0xE) ∧
      (∀ w, w < 32 → m.testBit w = false → held w = false →
        t.mem.bytes (a + 8 * w) 8 = toLe 8 (o.chunks.getD (w / 4 + 2) 0 / 2 ^ (64 * (w % 4))) ∧
          t.mem.tagAt (a + 8 * w) = storedTag (BitVec.ofNat 4 (o.chunks.getD 1 0 / 2 ^ (4 * w)))) ∧
      (∀ w, w < 32 → (m.testBit w = false ∧ held w = true ∨ m.testBit w = true ∧ s.dirty (a + 8 * w) = true) →
        (∀ i, i < 8 → t.mem.byte (a + 8 * w + i) = s.mem.byte (a + 8 * w + i)) ∧
          t.mem.tagAt (a + 8 * w) = s.mem.tagAt (a + 8 * w)) ∧
      (∀ b, b < a ∨ a + 256 ≤ b → t.mem.byte b = s.mem.byte b) ∧
      (t.yard y).pcount = min ((s.yard y).pcount + 1) 0xFFFFFF ∧
      ⟨s.steward.nextSeq, 0x11, 3, BitVec.ofNat 16 (yardNum y), s.timer, BitVec.ofNat 32 n.toNat, BitVec.ofNat 32 m, BitVec.ofNat 64 a⟩
        ∈ t.steward.log ∧
      ((t.yard y).mode = (s.yard y).mode → t.steward.nextSeq = s.steward.nextSeq + 1)) ∧
  (∀ (y : Yard) (n : YLine) (pos : Fin 10) (differs : Bool) (s : State), 3 ≤ s.steward.stage → (s.yard y).lost n.toNat = false →
    (s.yard y).missingAt n.toNat ≠ some pos →
    (differs = false → exec (.lateChunk y n pos differs) s = .next s) ∧
    (differs = true → ∃ t, exec (.lateChunk y n pos differs) s = .next t ∧ t.mem = s.mem ∧
      (t.yard y).corrections = (s.yard y).corrections + 1 ∧ (roleAt n.toNat pos.val ≠ 0 → ∀ i, i < 4 →
        t.dirOf (lineId (yardLineAddr y n.toNat + 64 * i)) = none))) ∧
  (∀ (y : Yard) (n : YLine) (off : BitVec 8) (data : List Byte) (tags : List Tag) (s : State),
    let a := yardLineAddr y n.toNat + off.toNat
    3 ≤ s.steward.stage → s.lostAt a = false → data ≠ [] → (∀ t ∈ tags, storedTag t = t) → off.toNat + data.length ≤ 256 →
    ∃ t, exec (.lineWrite y n off data tags) s = .next t ∧
      ∀ b, t.mem.byte b = if a ≤ b ∧ b < a + data.length then data.getD (b - a) 0 else s.mem.byte b)

/-- Channels of a yard in full protection: one that holds a position is declared failed and its position goes missing, on its own and by
the sixteenth line on which its chunk fails within 1 ms; a failed free spare is given up in any mode, and so is one that returns a wrong
chunk; a rebuild takes the free spare for the missing position, moves its pointer line by line unless the read of the line has stopped it, and
restores full protection after the last; a second loss with the position still missing fails the yard; each change of mode logs one record
(11 R297–R306, R310, R470, Table 11.5). That a failed spare is given up for good is the model's choice (log entry 70), and so is SPARE 0xF while
a rebuild has taken it (71). -/
def Sys2Proof.Claims.YardChannels : Prop :=
  (∀ (y : Yard) (ch : Fin 11) (s : State) (p : Fin 10), let k := s.yard y
    k.mode = 0 → ch ∉ k.deadChannels → k.posMap[p] = ch → (∀ q : Fin 10, k.posMap[q] = ch → q = p) →
    ∃ t, exec (.channelFailed y ch) s = .next t ∧ (t.yard y).mode = 1 ∧ (t.yard y).failed.toNat = ch.val ∧
      (t.yard y).missing = some p ∧ ch ∈ (t.yard y).deadChannels ∧ t.steward.nextSeq = s.steward.nextSeq + 1 ∧ t.mem = s.mem) ∧
  (∀ (k : YardState) (ch : Fin 11) (p : Fin 10) (n : Nat) (now : Word), k.mode = 0 → ch ∉ k.deadChannels → k.posMap[p] = ch →
    let roles := [roleAt n p.val]
    let old := k.fails.filter fun e => e.1 == ch && e.2.1 != n && decide (now.toNat ≤ e.2.2.toNat + 1000000)
    (15 ≤ old.length → k.countFails now n roles = { k with fails := (k.countFails now n roles).fails }.loseChannel ch) ∧
    (old.length < 15 → k.countFails now n roles = { k with fails := (k.countFails now n roles).fails })) ∧
  (∀ (y : Yard) (ch : Fin 11) (s : State), let k := s.yard y
    ch ∉ k.deadChannels → (∀ q : Fin 10, k.posMap[q] ≠ ch) → k.spare.toNat = ch.val →
    ∃ t, exec (.channelFailed y ch) s = .next t ∧ (t.yard y).mode = k.mode ∧ (t.yard y).spare = 0xF ∧ t.mem = s.mem) ∧
  (∀ (y : Yard) (ch : Fin 11) (s : State) (p q : Fin 10), let k := s.yard y
    k.mode = 1 → ch ∉ k.deadChannels → k.missing = some p → k.posMap[q] = ch → q ≠ p →
    ∃ t, exec (.channelFailed y ch) s = .next t ∧ (t.yard y).mode = 3 ∧ t.steward.nextSeq = s.steward.nextSeq + 1 ∧
      ∀ a, mainBase ≤ a → yardOf a = y → t.mainByte a = 0) ∧
  (∀ (y : Yard) (s : State) (p : Fin 10), let k := s.yard y
    k.mode = 1 → k.lostUp = false → k.missing = some p → k.spare.toNat < 11 →
    ∃ t, exec (.rebuildStart y) s = .next t ∧ (t.yard y).mode = 2 ∧ ((t.yard y).posMap[p]).val = k.spare.toNat ∧
      (t.yard y).spare = 0xF ∧ (t.yard y).rptr = 0 ∧ t.mem = s.mem ∧ t.steward.nextSeq = s.steward.nextSeq + 1) ∧
  (∀ (y : Yard) (errs : List ChunkError) (s : State), let k := s.yard y
    k.mode = 2 → k.lostUp = false → 3 ≤ s.steward.stage →
    (errs = [] ∨ ∀ ch : Fin 11, (k.fails.filter fun e => e.1 == ch).length < 15) →
    ∃ t, exec (.rebuildStep y errs) s = .next t ∧
      (k.rptr + 1 < 2 ^ 28 → (t.yard y).mode = 2 ∧ (t.yard y).rptr = k.rptr + 1 ∧ (t.yard y).missing = k.missing) ∧
      (2 ^ 28 ≤ k.rptr + 1 → (t.yard y).mode = 0 ∧ (t.yard y).rptr = 0 ∧ (t.yard y).failed = 0xF ∧ (t.yard y).missing = none)) ∧
  (∀ (y : Yard) (errs : List ChunkError) (s : State), let k := s.yard y
    let t := s.readLine y (BitVec.ofNat 28 k.rptr) errs
    k.mode = 2 → 3 ≤ s.steward.stage → (t.yard y).mode ≠ 2 → exec (.rebuildStep y errs) s = .next t) ∧
  (∀ (y : Yard) (errs : List ChunkError) (back : BitVec 256) (s : State), let k := s.yard y
    k.sweepHours ≠ 0 → k.mode ≠ 2 → 3 ≤ s.steward.stage → ∃ t, exec (.patrolScrubLine y errs back) s = .next t ∧
      (t.yard y).patrolNext = (k.patrolNext + 1) % 2 ^ 28 ∧ (t.yard y).scrubbed = k.scrubbed + 1 ∧
      (errs = [] → k.spare.toNat < 11 → (∀ c ∈ k.deadChannels, c.val ≠ k.spare.toNat) →
        (∀ q : Fin 10, (k.posMap[q]).val ≠ k.spare.toNat) →
        (t.yard y).spareCheck = (k.spareCheck + 1) % 2 ^ 28 ∧
        (t.yard y).spare = if back = sparePattern k.spareCheck then k.spare else 0xF)) ∧
  (∀ (y : Yard) (back : List (YLine × BitVec 256)) (s : State), let k := s.yard y
    k.initialised = false → 3 ≤ s.steward.stage →
    ∃ t, exec (.yardInitialisation y back) s = .next t ∧ (t.yard y).initialised = true ∧
      (k.spare.toNat < 11 → (∀ c ∈ k.deadChannels, c.val ≠ k.spare.toNat) →
        (∀ q : Fin 10, (k.posMap[q]).val ≠ k.spare.toNat) →
        ((∀ e ∈ back, e.2 = sparePattern e.1.toNat) → (t.yard y).spare = k.spare) ∧
        ((∃ e ∈ back, e.2 ≠ sparePattern e.1.toNat) → (t.yard y).spare = 0xF)) ∧
      ∀ a, (mainBase ≤ a → yardOf a = y → t.mem.byte a = 0) ∧
        (mainBase ≤ a → a % 8 = 0 → yardOf a = y → t.mem.tagAt a = 0xF) ∧ (yardOf a ≠ y → t.mem.byte a = s.mem.byte a) ∧
        (a < mainBase → t.mem.byte a = s.mem.byte a))

/-- Yards: lines, channels and rebuild. -/
def Obligations.Yards : Prop := Claims.YardLineReads ∧ Claims.YardChannels

/-! ## The Gate -/

/-- Doorbells of a serving Gate: a tail in range exposes the entries up to it, each stamped with TIMER; a head in range frees
completion entries; one out of range, or of a queue that does not exist, changes no queue, sets its QSTS.ERR bit and is logged. A
function-level reset deletes every queue, restores the globals and frees the mailboxes the host holds (13 R342–R345; 17 Table 17.6). Which
state a function-level reset touches beside the queues is the model's choice (log entry 79). -/
def Sys2Proof.Claims.QueueDoorbells : Prop :=
  (∀ (q : QueueId) (v : BitVec 16) (s : State), s.serving = true → let x := s.sqs[q]
    (x.valid = true → v.toNat < x.size → exec (.sqTailDoorbell q v) s = .next { s with sqs := s.sqs.set q { x with
      tail := v.toNat, stamps := x.stamps ++ List.replicate ((v.toNat + x.size - x.tail) % x.size) s.timer } }) ∧
    (x.valid = false ∨ x.size ≤ v.toNat → ∃ t, exec (.sqTailDoorbell q v) s = .next t ∧
      t = { s with qerr := s.qerr ||| (1#64 <<< q.val), steward := t.steward } ∧ t.steward.nextSeq = s.steward.nextSeq + 1)) ∧
  (∀ (q : QueueId) (v : BitVec 16) (s : State), s.serving = true → let x := s.cqs[q]
    (x.valid = true → v.toNat < x.size → exec (.cqHeadDoorbell q v) s = .next
      { s with cqs := s.cqs.set q { x with head := v.toNat } }) ∧
    (x.valid = false ∨ x.size ≤ v.toNat → ∃ t, exec (.cqHeadDoorbell q v) s = .next t ∧
      t = { s with qerr := s.qerr ||| (1#64 <<< q.val), steward := t.steward } ∧ t.steward.nextSeq = s.steward.nextSeq + 1)) ∧
  (∀ s : State, ∃ t, exec .flr s = .next t ∧ t.qerr = 0 ∧ t.qen = true ∧ t.mbvec = 0 ∧ t.mem = s.mem ∧ t.cores = s.cores ∧
    t.requests = s.requests.map (fun r => { r with sq := none, attached := r.attached.map fun _ => none }) ∧ (∀ q : QueueId, (t.sqs[q]).valid = false ∧ (t.cqs[q]).valid = false) ∧
    ∀ m : Fin 8, (t.mailboxes[m]).owner = if (s.mailboxes[m]).owner = 1 then 0 else (s.mailboxes[m]).owner)

/-- The queues that can be fetched from are served in turn. A fetched entry moves its queue's head on by one and is classified in order:
malformed, ping, session closed, session not here, attached to a request of the same RID, stale, duplicate, new (13 R343, R349, R352,
Table 13.7). The model's own choices: the order BAD_ENTRY, NO_SESSION, NOT_PRIMARY (log entry 73), the first turn (143), and attaching to the
request fetched first (144). -/
def Sys2Proof.Claims.EntryClassification : Prop :=
  (∀ (s : State) (q : QueueId), s.canFetch q = true → ∃ p, s.nextSq = some p ∧ s.canFetch p = true ∧ p - s.lastSq - 1 ≤ q - s.lastSq - 1) ∧
  (∀ (q : QueueId) (e : List Byte) (s : State), s.nextSq ≠ some q → exec (.entryFetch q e) s = .next s) ∧
  ∀ (q : QueueId) (e : List Byte) (s : State), s.nextSq = some q →
    let x := s.sqs[q]
    let t := { s with sqs := s.sqs.set q { x with head := (x.head + 1) % x.size, stamps := x.stamps.drop 1 }, lastSq := q }
    let sidx := entrySidx e
    let rid := entryRid e
    let k := s.session sidx
    let nent := if entryOpc e = 2 then entryNent e else 0
    let answered (status flags : Nat) : State := t.answer ⟨rid, sidx, some q, status, flags, [], 0⟩ nent
    let queued : State := { t with requests := s.requests ++ [newRequest t q e (x.stamps.headD s.timer)], nextReq := s.nextReq + 1 }
    let same := s.requests.find? fun r => r.sidx.toNat == sidx && r.rid.toNat == rid
    let run := exec (.entryFetch q e) s
    (entryOk e = false → run = .next (answered 5 0)) ∧
    (entryOk e = true → entryOpc e = 4 → run = .next (t.answer ⟨rid, sidx, some q, 0, 0, [], 0⟩ 0)) ∧
    (entryOk e = true → entryOpc e ≠ 4 →
      (k.state = 0 → run = .next (answered 3 0)) ∧
      (k.state ≠ 0 → k.state ≠ 1 ∨ k.replica = true → run = .next (answered 4 0)) ∧
      (k.state = 1 → k.replica = false →
        (entryOpc e = 3 → run = .next queued) ∧
        (∀ r, entryOpc e ≠ 3 → same = some r → run = .next { t with requests := s.requests.map fun o =>
          if o.id = r.id then { o with attached := o.attached ++ [some q] } else o }) ∧
        (entryOpc e ≠ 3 → same = none →
          (rid + 64 ≤ k.wbase.toNat → run = .next (answered 2 0)) ∧
          (k.wbase.toNat < rid + 64 →
            (k.wbase.toNat < rid ∨ k.wmap.getLsbD (k.wbase.toNat - rid) = false → run = .next queued) ∧
            (rid ≤ k.wbase.toNat → k.wmap.getLsbD (k.wbase.toNat - rid) = true →
              run = .next (t.answerDuplicate q e))))))

/-- DISPATCH of an owner's next queued request to its lowest free slot: expired, it completes EXPIRED; with a payload by pointer its
read goes out, or it completes BAD_ENTRY where the area is too small; else its descriptor stands in the slot's bytes and is offered.
The payload's arrival writes it and offers the descriptor, or completes PAYLOAD_ERROR; where the owner's entry has changed and no longer
holds it, it is queued again (the model's choice, log entry 145). Requests go in fetch order, one dispatched before ahead of the others
of its session, and none while an earlier one of the owner awaits its payload (13 R353–R355, R359, Table 13.10; 16 R406; 18 R432). That a
request is EXPIRED where its deadline equals TIMER is the model's choice (log entry 76). -/
def Sys2Proof.Claims.RequestDispatch : Prop :=
  (∀ (s : State) (o : Owner) (r : Request), s.nextFor o = some r → r ∈ s.requests ∧ s.dispatchable o r = true ∧
    ∀ x ∈ s.requests, s.dispatchable o x = true → (x.sidx = r.sidx → x.dup = true → r.dup = true ∧ r.id ≤ x.id) ∧
      (r.dup = false → r.id ≤ x.id)) ∧
  (∀ (s : State) (o : Owner) (n : Fin 32), s.freeSlot o = some n → n.val < (s.entry o).nslot ∧
    (∀ r ∈ s.requests, r.slotOf ≠ some (o, n)) ∧
    ∀ m : Fin 32, m < n → m.val < (s.entry o).nslot → ∃ r ∈ s.requests, r.slotOf = some (o, m)) ∧
  (∀ (s : State) (o : Owner), s.serving = false ∨ (s.entry o).en = false ∨ (∃ r ∈ s.requests, ∃ n, r.phase = .payload o n) →
    exec (.dispatch o) s = .next s) ∧
  (∀ (s : State) (o : Owner) (r : Request) (n : Fin 32), s.serving = true → (s.entry o).en = true →
    (∀ r ∈ s.requests, ∀ n, r.phase ≠ .payload o n) →
    s.nextFor o = some r → s.freeSlot o = some n →
    (s.expired r = true → exec (.dispatch o) s = .next (s.finish r 1 0 [] 0)) ∧
    (s.expired r = false → entryPtr r.entry = true →
      (2 ^ (s.entry o).psz < entryPlen r.entry → exec (.dispatch o) s = .next (s.finish r 5 0 [] 0)) ∧
      (entryPlen r.entry ≤ 2 ^ (s.entry o).psz → ∃ t, exec (.dispatch o) s = .next t ∧
        t.out = s.out ++ [.payloadRead r.id] ∧ t.mem = s.mem ∧ ∀ q ∈ t.requests, q.id = r.id → q.phase = .payload o n)) ∧
    (s.expired r = false → entryPtr r.entry = false → r.entry.length = 128 → ∃ t, exec (.dispatch o) s = .next t ∧
      (∀ q ∈ t.requests, q.id = r.id → q.phase = .offered o n ∧ q.order = s.nextOrder) ∧ t.nextOrder = s.nextOrder + 1 ∧
      (∀ i, i < 128 → i < 0x20 ∨ 0x28 ≤ i → t.mem.byte (slotKey o n.val i) = r.entry.getD i 0) ∧
      t.mem.bytes (slotKey o n.val 0x20) 8 = toLe 8 r.deadline.toNat ∧
      ∀ b, b < slotKey o n.val 0 ∨ slotKey o n.val 0 + 128 ≤ b → t.mem.byte b = s.mem.byte b)) ∧
  (∀ (s : State) (o : Owner) (n : Fin 32) (payload : List Byte) (ok : Bool) (r : Request),
    s.requests.find? (fun r => r.phase == .payload o n) = some r →
    (s.serving = false → exec (.payloadArrival o n payload ok) s = .next s) ∧
    (s.serving = true →
    (ok = false ∨ payload.length ≠ entryPlen r.entry →
      exec (.payloadArrival o n payload ok) s = .next (s.finish r 6 0 [] 0)) ∧
    (ok = true → payload.length = entryPlen r.entry → s.slotHolds o n r = false →
      exec (.payloadArrival o n payload ok) s = .next (s.modReq r.id fun r => { r with phase := .queued })) ∧
    (ok = true → payload.length = entryPlen r.entry → s.slotHolds o n r = true →
      exec (.payloadArrival o n payload ok) s = .next ((s.gateWrite (s.payloadAddr o n.val).2 payload).offer r o n))))

/-- A request is over: posted with every segment settled, SUCCESS with its summary; its home yard failed, or no core to take it,
FAILED; held past its deadline, EXPIRED (13 R350, R351, R358, R359; 17 R422). One that counts moves its session's window up to its RID
and sets its bit there; one that does not leaves the session as it was; either leaves the list of requests. That this command also ends the
requests of a failed yard and those that no core can take is the model's choice (log entry 72), and so are EXPIRED where the deadline equals TIMER
(76) and what NDONE and NDUP count (74). -/
def Sys2Proof.Claims.RequestCompletes : Prop :=
  (∀ (id : Nat) (s : State) (r : Request), s.requests.find? (·.id == id) = some r → s.steward.fatal = false →
    (r.phase = .posted → r.segs ≤ r.acked + r.local_ →
      exec (.requestCompletion id) s = .next (s.finish r 0 0 r.csum r.appstat)) ∧
    (r.phase ≠ .posted → (s.yard (homeOf r.sidx)).mode = 3 → exec (.requestCompletion id) s = .next (s.finish r 8 2 [] 0)) ∧
    (r.phase = .queued → (s.yard (homeOf r.sidx)).mode ≠ 3 → s.noCore r = true →
      exec (.requestCompletion id) s = .next (s.finish r 8 3 [] 0)) ∧
    (r.phase = .queued → r.runs = 0 → r.deadline ≤ s.timer →
      exec (.deadlineExpiry id) s = .next (s.finish r 1 0 [] 0))) ∧
  (∀ (s : State) (r : Request) (status cause : Nat) (sum : List Byte) (app : Byte),
    let t := s.finish r status cause sum app
    let n := r.sidx.toNat
    let counts := status = 0 ∨ (status = 8 ∧ r.runs ≠ 0)
    let w := max (s.session n).wbase.toNat r.rid.toNat
    t.requests = s.requests.filter (·.id != r.id) ∧ t.mem = s.mem ∧ t.cores = s.cores ∧
    (¬ counts → t.sessions = s.sessions) ∧
    (counts → (t.session n).ndone = (s.session n).ndone + 1 ∧
      (t.session n).ndup.toNat = min ((s.session n).ndup.toNat + r.attached.length) 0xFFFF ∧ ∀ m, m ≠ n → t.session m = s.session m) ∧
    (counts → entryOpc r.entry ≠ 3 → (t.session n).wbase.toNat = w ∧
      ∀ k, w < k + 64 → k ≤ w → (t.session n).wmap.getLsbD (w - k) =
        (decide (k = r.rid.toNat) ||
          (decide (k ≤ (s.session n).wbase.toNat) && (s.session n).wmap.getLsbD ((s.session n).wbase.toNat - k)))))

/-- A request lost with its core: FAILED after its second loss; a SUBMIT with every segment sealed is answered from its pennant once
each has its outcome; any other waits for the steward, which names an owner for every session of the core that was lost and queues it
again, marked as dispatched before (16 R404–R406, Table 16.3; 07 R211). The model's own choices: a second loss is always FAILED, also where
Table 16.3 row 2 could answer (log entry 58), and one owner takes every session of the lost core (60). -/
def Obligations.LostRequests : Prop :=
  (∀ (id : Nat) (s : State) (r : Request) (o : Owner) (wrote : Bool),
    s.requests.find? (·.id == id) = some r → r.phase = .lost o wrote →
    let sealed_ := entryOpc r.entry = 1 ∧ wrote = false ∧ 0 < r.segs
    (2 ≤ r.losses → exec (.coreLossResolution id) s = .next (s.finish r 8 1 [] 0)) ∧
    (r.losses < 2 → sealed_ → r.segs ≤ r.acked + r.local_ → exec (.coreLossResolution id) s = .next (s.finishFromPennant r)) ∧
    (r.losses < 2 → sealed_ → r.acked + r.local_ < r.segs → exec (.coreLossResolution id) s = .next s) ∧
    (r.losses < 2 → ¬ sealed_ → ∃ t, exec (.coreLossResolution id) s = .next t ∧ t.mem = s.mem ∧ t.sessions = s.sessions ∧
      ∀ q ∈ t.requests, q.id = r.id → q.phase = .returning o ∧ q.dup = true)) ∧
  (∀ (id : Nat) (s : State) (r : Request) (o p : Owner),
    s.requests.find? (·.id == id) = some r → r.phase = .returning o →
    ∃ t, exec (.requestReturn id p) s = .next t ∧ (∀ q ∈ t.requests, q.id = id → q.phase = .queued) ∧
      ((s.session r.sidx.toNat).owner = o ∨ s.ownerDown o = true → p ≠ o → (s.entry p).en = true → ∀ n ∈ s.sessionsOf o.val, (t.session n).owner = p) ∧
      ((s.session r.sidx.toNat).owner ≠ o → s.ownerDown o = false → t.sessions = s.sessions))

/-- Doorbells and the entries fetched. -/
def Obligations.DoorbellsAndEntries : Prop := Claims.QueueDoorbells ∧ Claims.EntryClassification

/-- Dispatch and completion of requests. -/
def Obligations.RequestsDispatchedAndCompleted : Prop := Claims.RequestDispatch ∧ Claims.RequestCompletes

/-! ## Mailboxes, registers and SMBus -/

namespace Sys2Proof.Claims

/-- A mailbox whose command stands before the steward and holds its locks: busy with this code, no fatal stop, a steward with its
clock, no acknowledgement wait but for a command that only reads, and no command that was rung earlier, nor the steward itself, with an
object in common (14 R365, R367, R370). -/
def Ready (s : State) (m : MboxId) (cmd : Nat) : Prop :=
  (s.mb m).busy = true ∧ fieldLe (s.mb m).req 0 2 = cmd ∧ s.steward.fatal = false ∧ s.smbusUp = true ∧
    (s.steward.warmWait = false ∨ cmd ∈ [0x01, 0x02, 0x50, 0x51, 0x90]) ∧ s.waitsForLock m = false

/-- The state in which the command of a mailbox has begun. -/
def begun (s : State) (m : MboxId) : State := s.modMb m fun b => { b with started := true }

/-- A response stands in a mailbox: its 256 B by 14 Table 14.2, BUSY clear, DONE set, and the response kept for a repeated tag
(14 R363, R366). -/
def Answered (s t : State) (m : MboxId) (status detail : Nat) (data : List Byte) : Prop :=
  let rsp := toLe 2 status ++ toLe 2 (fieldLe (s.mb m).req 0 2) ++ toLe 2 data.length ++ toLe 2 detail ++
    toLe 4 (s.mb m).tag.toNat ++ toLe 4 0 ++ data ++ List.replicate (240 - data.length) 0
  (t.mb m).busy = false ∧ (t.mb m).done = true ∧ (t.mb m).rsp = rsp ∧ (t.mb m).stored = some ((s.mb m).tag, rsp)

end Sys2Proof.Claims

/-- Mailbox semaphores and rings: an agent that reaches a free mailbox owns it, its owner frees it, nobody else changes OWNER; a ring by
its owner while idle sets BUSY, and is answered at once from the stored response of its tag, or with the status of the first of checks 1
to 4 that fails; another ring is logged; SMB_RING is the ring of mailbox 0 by SMBus. A response stands as 14 Table 14.2 lays it out and changes no
memory, core, session or other mailbox (13 R360, R361, Table 13.13; 14 R363–R366). -/
def Sys2Proof.Claims.MailboxProtocol : Prop :=
  (∀ (m : MboxId) (ag : Agent) (s : State), s.reaches m ag = true →
    ((s.mb m).owner = 0 → exec (.mbsemAcq m ag) s = .next (s.modMb m fun b => { b with owner := agentNum ag })) ∧
    ((s.mb m).owner ≠ 0 → exec (.mbsemAcq m ag) s = .next s) ∧
    ((s.mb m).owner = agentNum ag → exec (.mbsemRel m ag) s = .next (s.modMb m fun b => { b with owner := 0 })) ∧
    ((s.mb m).owner ≠ agentNum ag → exec (.mbsemRel m ag) s = .next s)) ∧
  (∀ (m : MboxId) (ag : Agent) (ring : Instr) (s : State), s.reaches m ag = true → s.steward.fatal = false →
    ring = .mbdbRing m ag ∨ (m = 0 ∧ ag = .smbus ∧ ∃ pec, pec ≠ .bad ∧ ring = .smbRing 1 pec) →
    let b := s.mb m
    ((b.owner ≠ agentNum ag ∨ b.busy = true) → ∃ t, exec ring s = .next t ∧ t.mailboxes = s.mailboxes ∧
      t.steward.nextSeq = s.steward.nextSeq + 1) ∧
    (b.owner = agentNum ag → b.busy = false →
      (∀ r, b.stored = some (b.tag, r) → ∃ t, exec ring s = .next t ∧ (t.mb m).busy = false ∧
        (t.mb m).done = true ∧ (t.mb m).rsp = r ∧ (t.mb m).stored = b.stored ∧ (∀ n, n ≠ m → t.mb n = s.mb n) ∧
        t = { s with mailboxes := t.mailboxes, nextRing := t.nextRing, msix := t.msix, out := t.out
                     steward := { s.steward with smbAlert := t.steward.smbAlert } }) ∧
      ((∀ r, b.stored ≠ some (b.tag, r)) → ∃ t, exec ring s = .next t ∧ t.nextRing = s.nextRing + 1 ∧
        (∀ st d, s.checkRequest b.req = some (st, d) → st ≠ 0 → Claims.Answered s t m st d []) ∧
        (s.checkRequest b.req = none → (t.mb m).busy = true ∧ (t.mb m).started = false ∧ (t.mb m).ring = s.nextRing)))) ∧
  (∀ (s : State) (m : MboxId) (st detail : Nat) (data : List Byte), st = 0 ∨ data = [] →
    let t := s.respond m st detail data
    Claims.Answered s t m st detail data ∧ (∀ n, n ≠ m → t.mb n = s.mb n) ∧ t.mem = s.mem ∧ t.cores = s.cores ∧
      t.sessions = s.sessions ∧ t.requests = s.requests ∧ t.steward.log = s.steward.log)

/-- Register writes over PCIe, and the SMBus: each reaches the register or the mailbox bytes that it names, by that register's access
code; a block written over SMBus acts byte by byte; a read answers the bytes of the mailbox; an alert is answered with the module's address and
ends; a command whose check byte is wrong changes nothing. A recovery image is written at its offset while it is received, verified once, and its state read
back, each write acknowledged or not. A dword written to configuration space takes its RW bits and clears its W1C bits, its other bits and every
other dword as they were (13 R340, R341, R345, R360, R361, Tables 13.3, 13.4, 13.12 and 13.13; 19 R453, R454, Table 19.4). The model's own choices: the
alert response byte, and that the bytes of a block act one by one and are logged once (log entry 95); offsets past 0x21F (162); the bits of
the configuration registers (141); the steward's writes of the dispatch table (109); the states of a recovery (113). -/
def Obligations.RegistersAndSmbus : Prop :=
  (∀ (s : State) (width : Nat) (v : Word), s.pcieUp = true → width = 4 ∨ width = 8 →
    exec (.registerWrite .bar0 0x08 width v) s = .next { s with qen := v.getLsbD 0 } ∧
    exec (.registerWrite .bar0 0x18 width v) s = .next { s with mbvec := v.setWidth 6 } ∧
    ∀ q : QueueId,
      exec (.registerWrite .bar0 (BitVec.ofNat 24 (0x1000 + 16 * q.val)) width v) s = exec (.sqTailDoorbell q (v.setWidth 16)) s ∧
      exec (.registerWrite .bar0 (BitVec.ofNat 24 (0x1008 + 16 * q.val)) width v) s = exec (.cqHeadDoorbell q (v.setWidth 16)) s) ∧
  (∀ (s : State) (off : BitVec 24) (v : Word), s.pcieUp = true → off.toNat < 0x1000 → off.toNat % 4 = 0 →
    off ≠ 0x44 → off ≠ 0x78 → ∃ t, exec (.registerWrite .config off 4 v) s = .next t ∧
      t.configRead off.toNat = ((s.configRead off.toNat &&& ~~~(configRw off.toNat)) ||| (v.setWidth 32 &&& configRw off.toNat))
        &&& ~~~(configW1c off.toNat &&& v.setWidth 32) ∧
      (∀ d, d ≠ off.toNat → t.configRead d = s.configRead d) ∧ t.mem = s.mem ∧ t.cores = s.cores ∧ t.sqs = s.sqs) ∧
  (∀ (s : State) (o : Owner) (v : Word), s.smbusUp = true → s.steward.standby = false → s.steward.fatal = false →
    ∃ t, exec (.registerWrite .dispatch (BitVec.ofNat 24 o.val) 8 v) s = .next t ∧
      (t.entry o).nslot = v.toNat / 2 % 64 ∧ ((t.entry o).en = true → v.getLsbD 0 = true ∧ 1 ≤ (t.entry o).nslot ∧
        (t.entry o).nslot ≤ 32) ∧ ∀ p, p ≠ o → t.entry p = s.entry p) ∧
  (∀ (s : State) (pec : Pec), s.smbusUp = true → pec ≠ .bad →
    (∀ off : BitVec 16, off.toNat ≤ 0x21F → exec (.smbSetOffset off pec) s = .next (s.setOffset off.toNat)) ∧
    (∀ d, exec (.smbBlockTransfer (.write d) pec) s =
      .next ((s.mbWrite 0 .smbus s.steward.smbOffset d).setOffset (s.steward.smbOffset + d.length))) ∧
    (∀ d, let b := s.mb 0
      let o := s.steward.smbOffset
      b.req.length = 256 → o + d.length ≤ 256 →
      (b.owner = 2 → b.busy = false → ∃ t, exec (.smbBlockTransfer (.write d) pec) s = .next t ∧
        (∀ i, (t.mb 0).req.getD i 0 = if o ≤ i ∧ i < o + d.length then d.getD (i - o) 0 else b.req.getD i 0) ∧
        (t.mb 0).busy = false ∧ (t.mb 0).owner = 2 ∧ (t.mb 0).rsp = b.rsp ∧ t.steward.smbOffset = o + d.length) ∧
      (b.owner ≠ 2 ∨ b.busy = true → d ≠ [] → ∃ t, exec (.smbBlockTransfer (.write d) pec) s = .next t ∧
        t.mailboxes = s.mailboxes ∧ t.steward.nextSeq = s.steward.nextSeq + 1 ∧ t.steward.smbOffset = o + d.length)) ∧
    (∀ x : Byte, (s.mb 0).owner = 2 → (s.mb 0).busy = false → s.steward.smbOffset = 0x200 → x.getLsbD 0 = true → ∀ y : Byte,
      exec (.smbBlockTransfer (.write (x :: List.replicate 15 0 ++ [y])) pec) s =
        .next ((let t := s.ring 0 .smbus
          if (t.mb 0).busy = true then t.logHost 0 3 (BitVec.ofNat 64 x.toNat)
          else t.modMb 0 fun b => { b with tag := setField b.tag 0 8 y.toNat }).setOffset 0x211)) ∧
    (∀ n, exec (.smbBlockTransfer (.read n) pec) s = .next
      ((s.emit (.smbRead ((List.range n).map fun i => (s.mb 0).byteAt (s.steward.smbOffset + i)))).setOffset
        (s.steward.smbOffset + n))) ∧
    exec (.smbRing 1 pec) s = exec (.mbdbRing 0 .smbus) s ∧
    exec (.smbSemaphore (.write 1) pec) s = exec (.mbsemAcq 0 .smbus) s ∧
    exec (.smbSemaphore (.write 2) pec) s = exec (.mbsemRel 0 .smbus) s ∧
    exec (.smbSemaphore .read pec) s = .next (s.emit (.smbRead [(s.mb 0).owner.setWidth 8]))) ∧
  (∀ s : State, s.smbusUp = true →
    exec .smbReadMbsts s = .next (s.emit (.smbRead [BitVec.ofNat 8 (s.mb 0).sts])) ∧
    (s.steward.smbAlert = true → ∃ t, exec .alertResponse s = .next t ∧ t.steward.smbAlert = false ∧
      t.out = s.out ++ [.smbRead [BitVec.ofNat 8 (2 * (0x58 + s.pins.smbAddr.toNat))]])) ∧
  (∀ (s : State) (v : Byte) (w : List Byte), exec (.smbRing v .bad) s = .next s ∧ exec (.smbBlockTransfer (.write w) .bad) s = .next s ∧
    (∀ off, exec (.smbSetOffset off .bad) s = .next s) ∧ exec (.smbSemaphore (.write v) .bad) s = .next s) ∧
  (∀ (s : State) (pec : Pec), s.recovering = true → s.smbusUp = true → pec ≠ .bad →
    let ack (ok : Bool) (t : State) : State := t.emit (.smbAck (0x68 + s.pins.smbAddr.toNat) ok)
    (s.steward.recoveryState = 0 → ∀ d : List Byte, 5 ≤ d.length → d.length ≤ 255 → fieldLe d 0 4 + (d.length - 4) ≤ 3 * 2 ^ 20 →
      ∃ r, exec (.recoveryWrite d pec) s = .next (ack true { s with steward := { s.steward with recovery := r } }) ∧
        ∀ i, Sparse.get 0 r i = if fieldLe d 0 4 ≤ i ∧ i < fieldLe d 0 4 + (d.length - 4) then d.getD (i - fieldLe d 0 4 + 4) 0
          else Sparse.get 0 s.steward.recovery i) ∧
    (s.steward.recoveryState = 0 → ∀ good, let byte (i : Nat) : Byte := Sparse.get 0 s.steward.recovery i
      let len := (byte 4).toNat + 2 ^ 8 * (byte 5).toNat + 2 ^ 16 * (byte 6).toNat + 2 ^ 24 * (byte 7).toNat
      let whole : Bool := byte 0 == 0x42 && byte 1 == 0x4F && byte 2 == 0x4F && byte 3 == 0x54 && decide (4096 ≤ len ∧ len ≤ 3 * 2 ^ 20)
      exec (.recoveryVerify 1 good pec) s = .next
        (ack true { s with steward := { s.steward with recoveryState := 1, recoveryOk := good && whole } })) ∧
    (s.steward.recoveryState ≠ 0 → (∀ d, exec (.recoveryWrite d pec) s = .next (ack false s)) ∧
      ∀ v good, exec (.recoveryVerify v good pec) s = .next (ack false s)) ∧
    exec .recoveryStatus s = .next (s.emit (.smbRead [BitVec.ofNat 8 s.steward.recoveryState])))

/-- The identity and the state that IDENTIFY and STATUS answer, field by field (14 Tables 14.7, 14.8; 11 Table 11.5). That the microcode
versions read zero before ST4 is the model's choice (log entry 151). -/
def Sys2Proof.Claims.ReportedData (s : State) (ident stat : List Byte) : Prop :=
  let f (off n : Nat) : Nat := fieldLe ident (off - 0x10) n
  let g (off n : Nat) : Nat := fieldLe stat (off - 0x10) n
  let w := s.steward
  (ident.length = 56 ∧ f 0x10 4 = Config.partCode.toNat ∧ f 0x14 2 = Config.revision.toNat ∧ f 0x16 2 = 0x0100 ∧
    f 0x18 8 = Config.serial.toNat ∧ f 0x20 4 = Config.fwVersion.toNat ∧
    f 0x24 4 = (if 4 ≤ w.stage then Config.ucVersion.toNat else 0) ∧
    (∀ i, i < 4 → f (0x28 + 4 * i) 4 = if 4 ≤ w.stage then (w.patches.getD i 0).toNat else 0) ∧
    f 0x38 1 = w.fuseLevel % 256 ∧ f 0x39 1 = s.pins.bootSel.toNat ∧ f 0x3A 2 = Config.sclkLimit % 65536 ∧
    ∀ c : CoreId, (f 0x3C 12).testBit c.val = decide ((s.core c).run = .paddock)) ∧
  (stat.length = 52 ∧ g 0x10 1 = w.stage % 256 ∧ (g 0x11 1).testBit 0 = s.pins.ready ∧ (g 0x11 1).testBit 1 = s.pins.safe ∧
    (g 0x11 1).testBit 2 = s.faultN ∧ (g 0x11 1).testBit 3 = s.pins.thermTrip ∧ (g 0x11 1).testBit 4 = w.pairB ∧ g 0x11 1 < 32 ∧
    (w.stage < 2 → ∀ i, 2 ≤ i → stat.getD i 0 = 0) ∧
    (2 ≤ w.stage → g 0x12 2 = w.power % 65536 ∧ (g 0x14 1 : Int) = w.hottest % 256 ∧
      g 0x15 1 = ((List.finRange 96).filter fun c => (s.core c).run != .paddock).length ∧
      (∀ h : ShedId, (g 0x16 2).testBit h.val = decide ((s.sheds[h]).retained = false ∧ (s.sheds[h]).mhz < s.shedFmax h)) ∧
      (∀ y, let k := s.yard y
        let x := g (0x18 + 8 * yardNum y) 8
        (w.stage < 4 → x = 0) ∧ (4 ≤ w.stage → k.pcount < 2 ^ 24 → x % 4 = k.mode.toNat ∧ x / 2 ^ 2 % 16 = k.spare.toNat ∧
          x / 2 ^ 6 % 16 = k.failed.toNat ∧ x.testBit 10 = k.rate ∧ x.testBit 11 = k.lostUp ∧ x / 2 ^ 12 % 2 ^ 28 = k.rptr % 2 ^ 28 ∧
          x / 2 ^ 40 = k.pcount)) ∧
      (∀ y, g (0x28 + 8 * yardNum y) 8 = s.ringFree y % 2 ^ 64) ∧
      (∀ p : PortId, let k := s.port p
        g 0x38 2 / 4 ^ p.val % 4 = if k.linkUp = false then 0 else if k.notReady = true then 1 else if k.paired = true then 3 else 2) ∧
      (∀ y, (g 0x3A 2).testBit (yardNum y) = (s.stream y).fenced) ∧
      g 0x3C 4 = (s.sessions.filter fun e => e.2.state == 1).length % 2 ^ 32 ∧ g 0x40 4 = (w.nextSeq - 1) % 2 ^ 32))

/-- A request that has not been dispatched, or not again: queued, waiting for its payload, or for its return (14 Table 14.10). -/
def Sys2Proof.Claims.Undispatched (r : Request) : Prop :=
  r.phase = .queued ∨ (∃ o, r.phase = .returning o) ∨ ∃ o n, r.phase = .payload o n

/-- What the two queries answer of a request, field by field: of one held, its state by the first row that holds, where it runs, its
segments; of one over, the state by the window and the newest entry of the outcome ring; and the fields of a batch (14 Tables 14.10, 14.11,
R374, R376). -/
def Sys2Proof.Claims.QueriedData (s : State) (sidx : BitVec 16) (rid : Word) (d b : List Byte) : Prop :=
  let f (off n : Nat) : Nat := fieldLe d (off - 0x10) n
  let g (off n : Nat) : Nat := fieldLe b (off - 0x40) n
  let x := s.session sidx.toNat
  let newest := s.outcomes.reverse.find? fun o => o.sidx == sidx && o.rid == rid
  let completed := rid.toNat ≤ x.wbase.toNat ∧ x.wmap.getLsbD (x.wbase.toNat - rid.toNat) = true
  d.length = 48 ∧ b.length = 7 ∧ f 0x18 8 = x.wbase.toNat ∧ f 0x38 8 = s.timer.toNat ∧
  (f 0x12 1).testBit 3 = decide (rid.toNat + 64 ≤ x.wbase.toNat) ∧
  (∀ r ∈ s.requests, r.sidx = sidx → r.rid = rid → (∀ q ∈ s.requests, q.sidx = sidx → q.rid = rid → q = r) →
    let waits := Claims.Undispatched r
    let writes := (∃ g ∈ s.segments, g.state = .writing ∧ r.is g.sidx g.rid = true) ∨ ∃ o, r.phase = .lost o true
    let state (n code : Nat) : Prop := f 0x10 1 = n ∧ f 0x11 1 = code
    (waits → r.dup = false → state 1 0) ∧ (waits → r.dup = true → state 8 1) ∧
    (¬ waits → writes ∨ r.runSegs = 0 → state 2 0) ∧
    (¬ waits → ¬ writes → r.runSegs ≠ 0 → (r.acked ≠ r.segs → state 3 0) ∧ (r.acked = r.segs → state 4 0)) ∧
    (f 0x12 1).testBit 0 = decide (r.attached ≠ []) ∧ (f 0x12 1).testBit 1 = decide (1 < r.runs) ∧ (f 0x12 1).testBit 2 = false ∧
    (∀ o n, r.phase = .offered o n ∨ r.phase = .taken o n → f 0x13 1 = o.val) ∧
    ((∀ o n, r.phase ≠ .offered o n ∧ r.phase ≠ .taken o n) → f 0x13 1 = 0xFF) ∧
    f 0x14 2 = r.segs % 65536 ∧ f 0x16 2 = r.acked % 65536 ∧
    (entryOpc r.entry ≠ 2 → leNat b = 0) ∧
    (entryOpc r.entry = 2 → entryNent r.entry ≠ 0 → g 0x40 2 = entryNent r.entry ∧ g 0x42 2 = r.segs % 65536 ∧ g 0x44 2 = r.acked % 65536 ∧
      g 0x46 1 = if entryNent r.entry ≤ r.segs then 0 else if r.phase = .posted then 4
        else if r.waiting then (if r.dup then 3 else 1) else if s.requestWrites r then 2 else 1)) ∧
  ((∀ r ∈ s.requests, ¬ (r.sidx = sidx ∧ r.rid = rid)) →
    f 0x13 1 = 0xFF ∧
    (∀ o, newest = some o → completed → o.status = 8 → f 0x10 1 = 9 ∧ f 0x11 1 = o.cause.toNat) ∧
    (completed → (∀ o, newest = some o → o.status ≠ 8) → f 0x10 1 = 5 ∧ f 0x11 1 = 0 ∧
      ((f 0x12 1).testBit 2 = true ↔ (s.pennantOf sidx.toNat rid.toNat).isSome = true) ∧
      (∀ p, s.pennantOf sidx.toNat rid.toNat = some p → slice d 0x10 16 = slice p.1 0 16) ∧
      (∀ p ∈ x.past, p.rid = rid → (∀ q ∈ x.past, q.rid = rid → q = p) →
        f 0x30 2 = p.status.toNat ∧ f 0x32 1 = p.flags.toNat % 16 ∧
        (p.batch = true → (∀ o ∈ s.outcomes, ¬ (o.sidx = sidx ∧ o.rid = rid ∧ o.batch = true)) →
          g 0x40 2 = 0 ∧ g 0x42 2 = 0xFFFF ∧ g 0x44 2 = 0xFFFF ∧ g 0x46 1 = 0xFF))) ∧
    (∀ o, newest = some o → ¬ completed →
      ((2 ≤ o.status.toNat ∧ o.status.toNat ≤ 6) ∨ o.status = 9 → f 0x10 1 = 6 ∧ f 0x11 1 = o.status.toNat) ∧
      (o.status = 1 → f 0x10 1 = 7 ∧ f 0x11 1 = 0) ∧ (o.status = 0xFF → f 0x10 1 = 8 ∧ f 0x11 1 = 0)) ∧
    (newest = none → ¬ completed → f 0x10 1 = 0 ∧ f 0x11 1 = 0 ∧ leNat b = 0))

/-- The commands that report and set: IDENTIFY and STATUS answer their data; SET_POLICY replaces the fields that are not zero, and
the policy block of the boot flash under PERSIST; LOG_READ answers the records asked for; TIME_SET sets TIMER and moves the deadlines of the
requests queued and held, those whose payload is awaited among them; SCRUB_CTL sets the sweep of the yards named (14 R372, Tables 14.5–14.8; 02 R26; 17 R425). -/
def Sys2Proof.Claims.ReportAndSetCommands : Prop :=
  ∀ (m : MboxId) (s : State), let f := fieldLe (s.mb m).req
    (Claims.ReportedData s s.identity s.statusData) ∧
    (Claims.Ready s m 0x01 → exec (.identify m) s = .next ((Claims.begun s m).respond m 0 0 (s.identity))) ∧
    (Claims.Ready s m 0x02 → exec (.status m) s = .next ((Claims.begun s m).respond m 0 0 (s.statusData))) ∧
    (∀ r : Request, r.waiting = true ↔ Claims.Undispatched r) ∧
    (Claims.Ready s m 0x03 → ∃ t, exec (.setPolicy m) s = .next t ∧ Claims.Answered s t m 0 0 t.policyData ∧
      t.steward.policy.pcap = (if f 0x10 2 = 0 then s.steward.policy.pcap else f 0x10 2) ∧
      t.steward.policy.tcase = (if f 0x12 1 = 0 then s.steward.policy.tcase else f 0x12 1) ∧
      t.steward.policy.ringlog = (if f 0x13 1 = 0 then s.steward.policy.ringlog else f 0x13 1) ∧
      t.steward.policy.sclkmax = (if f 0x14 2 = 0 then s.steward.policy.sclkmax else f 0x14 2) ∧
      t.steward.policyBlock = (if (f 0x16 1).testBit 0 then some t.steward.policy else s.steward.policyBlock) ∧
      t.steward.ringlog = s.steward.ringlog) ∧
    (Claims.Ready s m 0x90 → let rs := (s.steward.log.filter fun r => decide (f 0x10 4 ≤ r.seq)).take (f 0x14 1)
      ∃ t, exec (.logRead m) s = .next t ∧ Claims.Answered s t m 0 rs.length (rs.flatMap LogRec.bytes) ∧
        t.steward.log = s.steward.log) ∧
    (Claims.Ready s m 0x91 → ∃ t, exec (.timeSet m) s = .next t ∧ Claims.Answered s t m 0 0 [] ∧
      t.timer = BitVec.ofNat 64 (f 0x18 8) ∧
      t.requests = s.requests.map fun (r : Request) =>
        if r.waiting then { r with deadline := r.deadline + (t.timer - s.timer) } else r) ∧
    (Claims.Ready s m 0x71 → ∃ t, exec (.scrubCtl m) s = .next t ∧
      Claims.Answered s t m 0 0 (toLe 8 s.yardA.scrubbed ++ toLe 8 s.yardB.scrubbed ++ toLe 8 s.yardA.corrections
        ++ toLe 8 s.yardB.corrections) ∧
      ∀ y, (t.yard y).sweepHours = if (f 0x10 1).testBit (yardNum y) then f 0x11 1 else (s.yard y).sweepHours)

/-- The commands on sessions: SESSION_OPEN opens a closed session for an owner that is enabled, with its base and an all-ones map;
SESSION_CLOSE completes what is not dispatched and never was, and closes once nothing of it runs; SESSION_MOVE MODE 0 changes the owner once nothing of it
runs, MODE 1 sends EXPORTED once its requests and records are settled; the queries answer their data, each with its error for a session
in the wrong state (14 R372, R374, R376, Tables 14.10, 14.11; 13 R348; 15 Table 15.4). Where Table 14.6 is silent, SESSION_CLOSE of a session
that is moving, NO_OBJECT for a closed one and SESSION_MOVE of any session that is not closed are the model's choices (log entry 84). -/
def Obligations.SessionCommands : Prop :=
  (∀ (m : MboxId) (o : Owner) (s : State), let f := fieldLe (s.mb m).req
    let n := f 0x10 2
    let p : Owner := if f 0x13 1 = 0xFF then o else Fin.ofNat 97 (f 0x13 1)
    Claims.Ready s m 0x10 →
    ((s.session n).state ≠ 0 → ∃ t, exec (.sessionOpen m o) s = .next t ∧ Claims.Answered s t m 6 0x10 [] ∧
      t.sessions = s.sessions) ∧
    (∀ c, shedOf c = shedOf (Fin.ofNat 96 p.val) → p.val < 96 → (s.core c).paddockDue = false) →
    ((s.session n).state = 0 → (s.entry p).en = false → ∃ t, exec (.sessionOpen m o) s = .next t ∧
      Claims.Answered s t m 6 0x13 [] ∧ t.sessions = s.sessions) ∧
    ((s.session n).state = 0 → (s.entry p).en = true → ∃ t, exec (.sessionOpen m o) s = .next t ∧
      Claims.Answered s t m 0 0 [BitVec.ofNat 8 p.val] ∧ (t.session n).state = 1 ∧ (t.session n).owner = p ∧
      (t.session n).wbase = BitVec.ofNat 64 (f 0x18 8) ∧ (t.session n).wmap = 0xFFFFFFFFFFFFFFFF ∧
      (t.session n).replica = (f 0x12 1 == 1) ∧ (t.session n).dldef = f 0x14 2 ∧
      ∀ k, k ≠ n → t.session k = s.session k)) ∧
  (∀ (m : MboxId) (s : State), let n := fieldLe (s.mb m).req 0x10 2
    Claims.Ready s m 0x11 →
    ((s.session n).state = 0 → ∃ t, exec (.sessionClose m) s = .next t ∧ Claims.Answered s t m 5 0x10 [] ∧
      t.sessions = s.sessions) ∧
    ((s.session n).state ≠ 0 → s.requestsOf n = [] → ∃ t, exec (.sessionClose m) s = .next t ∧
      Claims.Answered s t m 0 0 (toLe 4 (s.mb m).progress) ∧ (t.session n).state = 0 ∧ t.requests = s.requests) ∧
    ((s.session n).state ≠ 0 →
      (∃ r ∈ s.requestsOf n, (r.waiting = false ∨ r.runs ≠ 0) ∧ ∀ q ∈ s.requests, q.id = r.id → q = r) →
      ∃ t, exec (.sessionClose m) s = .next t ∧ (t.session n).state = 2 ∧ (t.mb m).busy = true ∧
        ∀ r ∈ t.requestsOf n, r.waiting = false ∨ r.runs ≠ 0)) ∧
  (∀ (m : MboxId) (o : Owner) (s : State), let f := fieldLe (s.mb m).req
    let n := f 0x10 2
    let p : Owner := if f 0x13 1 = 0xFF then o else Fin.ofNat 97 (f 0x13 1)
    Claims.Ready s m 0x12 → f 0x12 1 = 0 → (s.session n).state ≠ 0 → (s.entry p).en = true →
    (p.val < 96 → (s.sheds[shedOf (Fin.ofNat 96 p.val)]).retained = false) →
    ((∀ r ∈ s.requestsOf n, r.queued_ = true) → ∃ t, exec (.sessionMoveCore m o) s = .next t ∧
      Claims.Answered s t m 0 0 [BitVec.ofNat 8 p.val] ∧ (t.session n).owner = p ∧ (t.session n).held = false ∧
      ∀ k, k ≠ n → t.session k = s.session k) ∧
    ((∃ r ∈ s.requestsOf n, r.queued_ = false) → ∃ t, exec (.sessionMoveCore m o) s = .next t ∧
      (t.session n).held = true ∧ (t.session n).owner = (s.session n).owner ∧ (t.mb m).busy = true)) ∧
  (∀ (m : MboxId) (s : State), let f := fieldLe (s.mb m).req
    let n := f 0x10 2
    Claims.Ready s m 0x12 → f 0x12 1 = 1 → (s.session n).state ≠ 0 → (s.session n).replica = false →
    (s.requestsOf n = [] → s.awaitsRecord n = false → ∃ t, exec (.sessionMoveExport m) s = .next t ∧
      Claims.Answered s t m 0 0 [BitVec.ofNat 8 (s.session n).owner.val] ∧ (t.session n).state = 2) ∧
    (s.requestsOf n ≠ [] ∨ s.awaitsRecord n = true → ∃ t, exec (.sessionMoveExport m) s = .next t ∧
      (t.session n).state = 2 ∧ (t.mb m).busy = true)) ∧
  (∀ (m : MboxId) (s : State), let f := fieldLe (s.mb m).req
    let sidx : BitVec 16 := BitVec.ofNat 16 (f 0x10 2)
    let rid : Word := BitVec.ofNat 64 (f 0x18 8)
    Claims.QueriedData s sidx rid (s.queryData sidx rid) (s.batchData sidx rid) ∧
    (Claims.Ready s m 0x50 → (s.session sidx.toNat).state ≠ 0 → ∃ t, exec (.queryRequest m) s = .next t ∧
      Claims.Answered s t m 0 0 (s.queryData sidx rid)) ∧
    (Claims.Ready s m 0x51 → (s.session sidx.toNat).state ≠ 0 → ∃ t, exec (.queryBatch m) s = .next t ∧
      Claims.Answered s t m 0 0 (s.queryData sidx rid ++ s.batchData sidx rid)) ∧
    (Claims.Ready s m 0x50 → (s.session sidx.toNat).state = 0 → ∃ t, exec (.queryRequest m) s = .next t ∧
      Claims.Answered s t m 5 0x10 []))

/-- The mailboxes and the commands that report and set. -/
def Obligations.MailboxesAndReports : Prop := Claims.MailboxProtocol ∧ Claims.ReportAndSetCommands

/-- IMAGE_LOAD gives every core named its HPCC and HDCC once the cores named are out of service and the image, its key and its
signature pass, and answers the check that fails else; KEY_SET writes the masked fields of every page's attribute byte and no other
byte, and stops before a page whose JRN changes under a claim (14 R372, Tables 14.5, 14.6 and 14.9; 02 R44; 12 R326). -/
def Obligations.ImageAndKeyCommands : Prop :=
  (∀ (m : MboxId) (image : List Byte) (s : State), let f := fieldLe (s.mb m).req
    let serves (c : CoreId) : Prop := (s.entry (ownerOf c)).en = true ∧ (s.core c).run ≠ .paddock
    let named (c : CoreId) : Prop := (f 0x20 12).testBit c.val = true
    let run := exec (.imageLoad m image) s
    let key := slice image 0x10 96
    let keyOk := sha384 key = Config.imageKeyHash
    let sigOk := ecdsa384 key (image.drop (image.length - 96)) (image.take (image.length - 96)) = true
    Claims.Ready s m 0x20 → f 0x18 4 = image.length → (∀ c, named c → (s.sheds[shedOf c]).retained = false) →
    ((∃ c, named c ∧ serves c) → ∃ t, run = .next t ∧ Claims.Answered s t m 6 0x20 [] ∧ t.mem = s.mem) ∧
    ((∀ c, named c → ¬ serves c) →
      (s.imageForm image = false → ∃ t, run = .next t ∧ Claims.Answered s t m 8 1 [] ∧ t.mem = s.mem) ∧
      (s.imageForm image = true → ¬ keyOk → ∃ t, run = .next t ∧ Claims.Answered s t m 8 2 [] ∧ t.mem = s.mem) ∧
      (s.imageForm image = true → keyOk → ¬ sigOk →
        ∃ t, run = .next t ∧ Claims.Answered s t m 8 3 [] ∧ t.mem = s.mem) ∧
      (s.imageForm image = true → keyOk → sigOk → ∃ t, run = .next t ∧
        Claims.Answered s t m 0 0 (toLe 2 (fieldLe image 6 2)) ∧
        ∀ c, named c → (t.core c).hpcc = Cap.make 0xA0 0 0 0x4000 0 ∧ (t.core c).hdcc = Cap.make 0xFF 0 0 0x12000000000 0))) ∧
  (∀ (m : MboxId) (s : State), let f := fieldLe (s.mb m).req
    let page := pageOf (f 0x10 8)
    let n := f 0x18 4
    let value : Byte := BitVec.ofNat 8 (f 0x1C 1)
    let mask : Byte := BitVec.ofNat 8 (f 0x1D 1)
    Claims.Ready s m 0x21 → (s.mb m).progress = 0 →
    (s.yardA.claims = [] → s.yardB.claims = [] → (∀ c, (s.core c).sbuf = []) →
      (∀ i, i < n → s.lostAt (attrAddr (page + i)) = false) →
      ∃ t, exec (.keySet m) s = .next t ∧ Claims.Answered s t m 0 0 (toLe 4 n) ∧
        ∀ b, t.mem.byte b = if attrAddr page ≤ b ∧ b < attrAddr page + n then keyByte (s.mem.byte b) value mask else s.mem.byte b) ∧
    (n ≠ 0 → s.claimedPage page = true →
      attrJrn (keyByte (s.mem.byte (attrAddr page)) value mask) ≠ attrJrn (s.mem.byte (attrAddr page)) →
      ∃ t, exec (.keySet m) s = .next t ∧ t.mem = s.mem ∧ (t.mb m).busy = true ∧ (t.mb m).progress = 0)) ∧
  (∀ old value mask : Byte, ∀ i, i < 8 → (keyByte old value mask).getLsbD i =
    if i < 2 then old.getLsbD i && !mask.getLsbD i
    else if (i < 6 ∧ mask.getLsbD 7 = true) ∨ (i = 6 ∧ mask.getLsbD 6 = true) ∨ (i = 7 ∧ mask.getLsbD 5 = true)
      then value.getLsbD i else old.getLsbD i)

/-- QUEUE_CREATE and QUEUE_DELETE: a pair of queues that may be created stands empty with its sizes, bases and vector; an SQ is
deleted once nothing fetched from it is left, a CQ once no SQ is paired with it; each error by 14 Table 14.6. The journal streams start
with PROD and CONS zero at the next record of the ring and stop at once (14 R372; 12 R338, R339). -/
def Obligations.QueueAndStreamCommands : Prop :=
  (∀ (m : MboxId) (s : State), let f := fieldLe (s.mb m).req
    let q : QueueId := Fin.ofNat 64 (f 0x10 1)
    let c : QueueId := Fin.ofNat 64 (f 0x11 1)
    let run := exec (.queueCreate m) s
    Claims.Ready s m 0x30 →
    (f 0x12 1 ≠ 1 → (s.cqs[c]).valid = false → ∃ t, run = .next t ∧ Claims.Answered s t m 5 0x11 [] ∧ t.sqs = s.sqs) ∧
    (f 0x12 1 = 1 ∨ (s.cqs[c]).valid = true →
      ((s.sqs[q]).valid = true → ∃ t, run = .next t ∧ Claims.Answered s t m 6 0x10 [] ∧ t.sqs = s.sqs ∧ t.cqs = s.cqs) ∧
      ((s.sqs[q]).valid = false → f 0x12 1 = 1 → (s.cqs[c]).valid = true →
        ∃ t, run = .next t ∧ Claims.Answered s t m 6 0x11 [] ∧ t.sqs = s.sqs ∧ t.cqs = s.cqs) ∧
      ((s.sqs[q]).valid = false → (f 0x12 1 = 1 → (s.cqs[c]).valid = false) → ∃ t, run = .next t ∧
        Claims.Answered s t m 0 0 [] ∧ t.sqs = s.sqs.set q ⟨true, c, BitVec.ofNat 64 (f 0x18 8), f 0x14 2, 0, 0, [], false⟩ ∧
        t.cqs = if f 0x12 1 = 1 then
            s.cqs.set c ⟨true, Fin.ofNat 64 (f 0x13 1), BitVec.ofNat 64 (f 0x20 8), f 0x16 2, 0, 0, true⟩
          else s.cqs))) ∧
  (∀ (m : MboxId) (s : State), let f := fieldLe (s.mb m).req
    let q : QueueId := Fin.ofNat 64 (f 0x10 1)
    Claims.Ready s m 0x31 →
    (f 0x11 1 = 1 → (s.mb m).progress = 0 → (s.sqs[q]).valid = true →
      (s.fetchedFrom q = false → ∃ t, exec (.queueDeleteSq m) s = .next t ∧ Claims.Answered s t m 0 0 [] ∧
        (t.sqs[q]).valid = false ∧ t.cqs = s.cqs) ∧
      (s.fetchedFrom q = true → ∃ t, exec (.queueDeleteSq m) s = .next t ∧ (t.sqs[q]).stopped = true ∧
        (t.sqs[q]).valid = true ∧ (t.mb m).busy = true)) ∧
    (f 0x11 1 = 2 → (s.cqs[q]).valid = true →
      (s.pairedSq q none = false → ∃ t, exec (.queueDeleteCq m) s = .next t ∧ Claims.Answered s t m 0 0 [] ∧
        (t.cqs[q]).valid = false ∧ t.sqs = s.sqs) ∧
      (s.pairedSq q none = true → ∃ t, exec (.queueDeleteCq m) s = .next t ∧ Claims.Answered s t m 6 0x10 [] ∧ t.cqs = s.cqs))) ∧
  (∀ (m : MboxId) (s : State), let f := fieldLe (s.mb m).req
    let named (y : Yard) : Prop := (f 0x10 1).testBit (yardNum y) = true
    Claims.Ready s m 0x60 →
    (f 0x11 1 = 1 → (∀ y, named y → (s.yard y).stream.state ≠ 1) → ∃ t, exec (.journalStreamStart m) s = .next t ∧
      Claims.Answered s t m 0 0 [] ∧ ∀ y, (named y → (t.yard y).stream =
        ⟨BitVec.ofNat 64 (f (if y = .a then 0x18 else 0x20) 8), BitVec.ofNat 6 (f 0x12 1), 1, 0, 0, (s.yard y).ring.nextRseq⟩) ∧
        (¬ named y → t.yard y = s.yard y)) ∧
    (f 0x11 1 = 1 → (∃ y, named y ∧ (s.yard y).stream.state = 1) → ∃ t, exec (.journalStreamStart m) s = .next t ∧
      Claims.Answered s t m 6 0x10 [] ∧ t.yardA = s.yardA ∧ t.yardB = s.yardB) ∧
    (f 0x11 1 = 0 → ∃ t, exec (.journalStreamStop m) s = .next t ∧ Claims.Answered s t m 0 0 [] ∧
      ∀ y, named y → (t.yard y).stream = { (s.yard y).stream with state := 0 }))

/-- The mirror commands: MIRROR_PAIR puts the ports named in force with their serial, out of NOT-READY, and answers once one of them has
paired, or PEER when its time is over; MIRROR_FENCE fences the streams named, or from ST2 to ST4 keeps them to be fenced at ST5, and
under HOLD makes every port send NOTREADY; a paired port whose partner the new serial rejects pairs anew; MIRROR_TAKEOVER makes the replica
sessions named primary where it may take every one of them (14 R372; 15 R393, R395–R397). The model's own choices: MIRROR_FENCE acts at once
from ST5 on, where Table 14.6 speaks of before ST6 (log entry 89), and MIRROR_TAKEOVER takes all the replica sessions named or none, with
NO_OBJECT where none is named (85). -/
def Obligations.MirrorCommands : Prop :=
  (∀ (m : MboxId) (s : State), let f := fieldLe (s.mb m).req
    Claims.Ready s m 0x40 → (s.mb m).started = false → s.streamA.fenced = false → s.streamB.fenced = false →
    s.streamA.cut = false → s.streamB.cut = false →
    let serial := BitVec.ofNat 64 (f 0x18 8)
    let stays (p : PortId) : Bool := (s.port p).paired && (serial == 0 || serial == (s.port p).partner)
    ∃ t, exec (.mirrorPair m) s = .next t ∧ t.steward.acktmo = f 0x12 2 ∧
      (∀ p : PortId, (f 0x10 1).testBit p.val = true → (t.port p).inForce = true ∧ (t.port p).pserial = serial ∧
        (t.port p).notReady = false ∧ (t.port p).paired = stays p ∧ t.steward.lift.getLsbD p.val = !stays p) ∧
      (∀ p : PortId, (f 0x10 1).testBit p.val = false → (t.port p).paired = (s.port p).paired ∧
        ((∀ q : PortId, (f 0x10 1).testBit q.val = true → stays q = (s.port q).paired) → t.port p = s.port p)) ∧
      ((∀ p : PortId, (f 0x10 1).testBit p.val = true → stays p = false) → (t.mb m).busy = true) ∧
      ∀ p : PortId, (f 0x10 1).testBit p.val = true → stays p = true → (t.mb m).busy = false ∧ (t.mb m).done = true) ∧
  (∀ (m : MboxId) (s : State), let f := fieldLe (s.mb m).req
    Claims.Ready s m 0x40 → (s.mb m).started = true →
    (∀ p : PortId, (f 0x10 1).testBit p.val = true → (s.port p).paired = false) →
    ∃ t, exec (.mirrorPairTimeout m) s = .next t ∧ Claims.Answered s t m 9 (f 0x10 1) [] ∧ t.ports = s.ports) ∧
  (∀ (m : MboxId) (s : State), let f := fieldLe (s.mb m).req
    Claims.Ready s m 0x41 →
    (s.steward.stage < 5 → ∃ t, exec (.mirrorFence m) s = .next t ∧ Claims.Answered s t m 0 0 [] ∧
      t.steward.fencesDue = s.steward.fencesDue ||| BitVec.ofNat 2 (f 0x10 1) ∧
      t.steward.holdDue = (s.steward.holdDue || (f 0x11 1 == 1)) ∧ t.ports = s.ports ∧ t.streamA = s.streamA) ∧
    (5 ≤ s.steward.stage → ∃ t, exec (.mirrorFence m) s = .next t ∧ Claims.Answered s t m 0 0 [] ∧
      (∀ y, (f 0x10 1).testBit (yardNum y) = true → (t.stream y).fenced = true) ∧
      (f 0x11 1 = 1 → ∀ p : PortId, (t.port p).notReady = true ∧ (t.port p).paired = false) ∧
      (f 0x11 1 ≠ 1 → t.ports = s.ports))) ∧
  (∀ (m : MboxId) (s : State), let f := fieldLe (s.mb m).req
    let named := s.namedSessions (f 0x10 2) (f 0x12 2)
    Claims.Ready s m 0x42 →
    (named = [] → ∃ t, exec (.mirrorTakeover m) s = .next t ∧ Claims.Answered s t m 5 0x10 [] ∧ t.sessions = s.sessions) ∧
    ((∃ n ∈ named, s.replica n = true) → (∀ n ∈ named, s.replica n = true → s.mayTake n = true) →
      ∃ t, exec (.mirrorTakeover m) s = .next t ∧ (t.mb m).busy = false ∧ (t.mb m).done = true ∧
        ∀ n ∈ named, s.replica n = true → (t.session n).replica = false ∧ (t.session n).state = 1 ∧
          (t.session n).owner = (s.session n).owner ∧ (t.session n).wbase = (s.session n).wbase) ∧
    (named ≠ [] → (∀ n ∈ named, s.replica n = false) ∨ (∃ n ∈ named, s.replica n = true ∧ s.mayTake n = false) →
      ∃ t, exec (.mirrorTakeover m) s = .next t ∧ Claims.Answered s t m 6 0x10 [] ∧ t.sessions = s.sessions))

/-- The commands on cores and restarts: a preserving march keeps the bank's bytes, a destructive one of a core in paddock leaves its
stripes zero and UNINIT and its control store empty; CORE_RETIRE moves the core's sessions and puts it in paddock; CORE_RELEASE enters
vector 0 from there with its dispatch entry as it was; RESTART of a core enters vector 0, of the module ends the other commands
RESET_ABORTED and posts the reset, a cold one raising the fuse level where the images reach it; a shed of the core named that is in retention wakes
first (14 R368, R372, R373; 07 R211; 10 R273, R274; 18 R438). The model's own choices: a cold RESTART that fails its checks still ends every
other command (log entry 92), HW_FAULT with its record at CORE_RELEASE (91), and a march made whole within MARCH_RUN (30). -/
def Obligations.CoreAndRestartCommands : Prop :=
  (∀ (m : MboxId) (found : MarchReport) (s : State), let f := fieldLe (s.mb m).req
    let c : CoreId := Fin.ofNat 96 (f 0x10 1)
    let other := (f 0x12 1).testBit 1 = true ∨ (f 0x12 1).testBit 2 = true
    Claims.Ready s m 0x70 → f 0x11 1 = 0 → (s.sheds[shedOf c]).retained = false →
    ((s.core c).run ≠ .paddock → f 0x13 1 < 4 → ∃ t, exec (.marchRunPreserving m found) s = .next t ∧
      Claims.Answered s t m 6 0x13 [] ∧ t.mem = s.mem ∧ t.cores = s.cores) ∧
    ((s.core c).run ≠ .paddock → 4 ≤ f 0x13 1 → other → ∃ t, exec (.marchRunPreserving m found) s = .next t ∧
      Claims.Answered s t m 6 0x10 [] ∧ t.mem = s.mem ∧ t.cores = s.cores) ∧
    ((s.sheds[shedOf c]).march = none → (s.core c).paddockDue = false →
      found.rows = [] → found.spares = [] → (s.core c).run = .paddock ∨ (4 ≤ f 0x13 1 ∧ ¬ other) →
      ∃ t, exec (.marchRunPreserving m found) s = .next t ∧ t.mem = s.mem ∧ t.cores = s.cores ∧ ∀ n,
        (other → n = found.others) → (¬ other → n = 0) →
        Claims.Answered s t m 0 0 (toLe 2 n ++ [BitVec.ofNat 8 (min (s.core c).spareMap.length 32 % 256),
          BitVec.ofNat 8 ((s.core c).unrepaired.length % 256)]))) ∧
  (∀ (m : MboxId) (s : State), let f := fieldLe (s.mb m).req
    let c : CoreId := Fin.ofNat 96 (f 0x10 1)
    Claims.Ready s m 0x70 → f 0x11 1 = 1 → (f 0x12 1).testBit 0 = true → (s.core c).run = .paddock →
    (s.core c).paddockDue = false → (s.sheds[shedOf c]).retained = false → (s.sheds[shedOf c]).march = none →
    ∀ others, ∃ t, exec (.marchRunDestructive m ⟨[], [], others⟩) s = .next t ∧ (t.mb m).busy = false ∧
      ((f 0x12 1).testBit 1 = true → (t.core c).cs = none) ∧
      (∀ n ∈ marchStripes (s.mb m).req, ∀ i, i < 4096 → t.mem.byte (bankKey c (4096 * n + i)) = 0 ∧
        t.mem.tagAt (bankKey c (4096 * n + i)) = 0xF) ∧
      ∀ b, b < bankKey c 0 ∨ bankKey c 0x80000 ≤ b → t.mem.byte b = s.mem.byte b) ∧
  (∀ (m : MboxId) (found : MarchReport) (s : State), let f := fieldLe (s.mb m).req
    Claims.Ready s m 0x70 → f 0x11 1 = 1 → (s.core (Fin.ofNat 96 (f 0x10 1))).run ≠ .paddock →
    (s.sheds[shedOf (Fin.ofNat 96 (f 0x10 1))]).retained = false →
    ∃ t, exec (.marchRunDestructive m found) s = .next t ∧ Claims.Answered s t m 6 0x10 [] ∧ t.mem = s.mem ∧ t.cores = s.cores) ∧
  (∀ (m : MboxId) (o : Owner) (s : State), let f := fieldLe (s.mb m).req
    let c : CoreId := Fin.ofNat 96 (f 0x10 1)
    Claims.Ready s m 0x80 → (s.core c).run ≠ .paddock → o ≠ ownerOf c → (s.entry o).en = true → (∀ d, (s.core d).paddockDue = false) →
    ∃ t, exec (.coreRetire m o) s = .next t ∧ Claims.Answered s t m 0 0 (toLe 2 (s.sessionsOf c.val).length) ∧
      (t.core c).run = .paddock ∧ (t.core c).retired = true ∧ (t.entry (ownerOf c)).en = false ∧ (t.sheds[shedOf c]).retained = false ∧
      ∀ n ∈ s.sessionsOf c.val, (t.session n).owner = o) ∧
  (∀ (m : MboxId) (s : State), let f := fieldLe (s.mb m).req
    let c : CoreId := Fin.ofNat 96 (f 0x10 1)
    Claims.Ready s m 0x81 →
    ((s.core c).run ≠ .paddock ∨ (s.core c).unrepaired ≠ [] → (s.sheds[shedOf c]).retained = false → ∀ first second, ∃ t,
      exec (.coreRelease m first second) s = .next t ∧ Claims.Answered s t m 6 0x10 [] ∧ t.cores = s.cores) ∧
    ((s.core c).run = .paddock → (s.core c).unrepaired = [] → (s.core c).paddockDue = false →
      (∀ first second, first = [] ∨ second = [] → ∃ t, exec (.coreRelease m first second) s = .next t ∧ Claims.Answered s t m 0 0 [] ∧ (t.core c).run = .running ∧
        (t.core c).depth = 0 ∧ (t.core c).cause.toNat = 3 * 0x400000 + 3 ∧ (t.entry (ownerOf c)).en = (s.core c).savedEn) ∧
      ∀ i x, x ≠ 0 → (s.sheds[shedOf c]).retained = false → ∃ t, exec (.coreRelease m [(i, x)] [(i, x)]) s = .next t ∧
        Claims.Answered s t m 10 (s.steward.nextSeq % 2 ^ 16) [] ∧
        (t.core c).run = .paddock ∧ t.steward.nextSeq = s.steward.nextSeq + 1)) ∧
  (∀ (m : MboxId) (o : Owner) (s : State), let f := fieldLe (s.mb m).req
    let c : CoreId := Fin.ofNat 96 (f 0x11 1)
    Claims.Ready s m 0xF0 → f 0x10 1 = 0 → (s.core c).run ≠ .paddock → (s.core c).paddockDue = false →
    ∃ t, exec (.restartCore m o) s = .next t ∧ Claims.Answered s t m 0 0 [] ∧ (t.core c).run = .running ∧ (t.core c).depth = 0 ∧
      (t.core c).pcc.cursor = 0 ∧ (t.core c).cause.toNat = 3 * 0x400000 + 2 ∧ ∀ r : BitVec 4, (t.core c).getG r = ⟨0, 0, none⟩) ∧
  (∀ (m : MboxId) (flash : List (List Byte)) (s : State), let f := fieldLe (s.mb m).req
    let n := f 0x12 1
    let reaches := n ≤ s.steward.imageLevel ∧ ∀ c ∈ flash, Container_signed c = true → n ≤ Container_level c
    Claims.Ready s m 0xF0 →
    (f 0x10 1 = 1 → ∃ t, exec (.restartWarm m) s = .next t ∧ Claims.Answered s t m 0 0 [] ∧
      t.steward.pendingReset = some .warm ∧ t.steward.fuseLevel = s.steward.fuseLevel ∧
      ∀ k, k ≠ m → (s.mb k).busy = true → Claims.Answered s t k 11 0 []) ∧
    (f 0x10 1 = 2 →
      (n = 0 ∨ (s.steward.fuseLevel < n ∧ reaches) → ∃ t, exec (.restartCold m flash) s = .next t ∧ Claims.Answered s t m 0 0 [] ∧
        t.steward.pendingReset = some .cold ∧ t.steward.fuseLevel = max n s.steward.fuseLevel ∧
        ∀ k, k ≠ m → (s.mb k).busy = true → Claims.Answered s t k 11 0 []) ∧
      (n ≠ 0 → n ≤ s.steward.fuseLevel → ∃ t, exec (.restartCold m flash) s = .next t ∧ Claims.Answered s t m 8 1 [] ∧
        t.steward.pendingReset = s.steward.pendingReset ∧ ∀ k, k ≠ m → (s.mb k).busy = true → Claims.Answered s t k 11 0 []) ∧
      (s.steward.fuseLevel < n → ¬ reaches → ∃ t, exec (.restartCold m flash) s = .next t ∧ Claims.Answered s t m 8 2 [] ∧
        t.steward.pendingReset = s.steward.pendingReset ∧ ∀ k, k ≠ m → (s.mb k).busy = true → Claims.Answered s t k 11 0 [])))

/-! ## Halyard -/

/-- A frame of a type that a paired port out of NOT-READY keeps (15 R381, R395). -/
def Sys2Proof.Claims.Heard (s : State) (p : PortId) (f : FrameIn) (type : Nat) : Prop :=
  frameKept f = true ∧ fieldLe f.bytes 0 1 = type ∧ (s.port p).paired = true ∧ (s.port p).notReady = false

/-- Sending: the next record of a stream that a paired port carries, with credits and room, goes out under the next LSEQ and stays in
the replay buffer; a replay sends every unacknowledged frame again, the ninth from one LSEQ takes the port down; the heartbeat and the
NOT-READY timer send their frame, and any unpaired port its HELLO (15 R382–R390, R395, R396, R473). That the absence of a partner ends with the next
tick of the HELLO timer is the model's choice (log entry 99). -/
def Sys2Proof.Claims.HalyardSends : Prop :=
  (∀ (p : PortId) (s : State) (y : Yard) (e : RingRec), let k := s.port p
    k.paired = true → k.absent = false → k.waiting = [] → s.sendable p = some (y, e) → ∃ t bytes,
    exec (.dataFrameSend p) s = .next t ∧ (t.port p).nextLseq = k.nextLseq + 1 ∧ (t.port p).replay = k.replay ++ [(k.nextLseq, bytes)] ∧
      (t.stream y).nextSend = e.rseq + 1 ∧ (t.stream y).used = ((s.stream y).used + e.nlines) % 2 ^ 32 ∧
      t.out = s.out ++ [.frame p bytes] ∧ t.mem = s.mem) ∧
  (∀ (p : PortId) (s : State) (y : Yard) (e : RingRec), s.sendable p = some (y, e) →
    s.streamPort y = some p ∧ (s.stream y).fenced = false ∧ e ∈ (s.yard y).ring.recs ∧ e.mine = true ∧ e.written = true ∧
      (s.stream y).nextSend ≤ e.rseq ∧ (s.stream y).credits e.nlines = true ∧ (s.port p).held + 256 * e.nlines + 128 ≤ 262144) ∧
  (∀ (p : PortId) (s : State), let k := s.port p
    k.paired = true → k.replay ≠ [] →
    (k.replays < 8 → ∃ t, exec (.replayTimeout p) s = .next t ∧ (t.port p).replays = k.replays + 1 ∧ t.mem = s.mem ∧
      (t.port p).replay.map Prod.fst = k.replay.map Prod.fst ∧
      t.out = s.out ++ (t.port p).replay.map fun e => .frame p e.2) ∧
    (8 ≤ k.replays → k.linkUp = true → ∃ t, exec (.replayTimeout p) s = .next t ∧ (t.port p).linkUp = false ∧
      (t.port p).paired = false ∧ (t.port p).replay = [])) ∧
  (∀ (p : PortId) (s : State), (s.port p).notReady = false → (s.port p).paired = true →
    exec (.ackHeartbeat p) s = .next (s.emit (.frame p (s.shortFrame p 0x10 0 (s.port p).nextLseq 0)))) ∧
  (∀ (p : PortId) (s : State), (s.port p).linkUp = true →
    ((s.port p).notReady = true → exec (.notreadyTimer p) s =
      .next (s.emit (.frame p (s.shortFrame p 0x12 0 (s.port p).nextLseq 0)))) ∧
    ((s.port p).notReady = false → (s.port p).paired = false →
      ((s.port p).absent = true → exec (.helloTimer p) s = .next (s.modPort p fun k => { k with absent := false })) ∧
      ((s.port p).absent = false → ∃ t, exec (.helloTimer p) s = .next t ∧ t.out = s.out ++ [.frame p (s.helloBytes p)] ∧
        t.ports = s.ports ∧ t.streamA.hello = s.yardA.ring.nextRseq ∧ t.streamB.hello = s.yardB.ring.nextRseq)))

/-- Receiving: a sequenced frame in order moves the expectation on by one; one already taken is answered with an ACK and one ahead with a
single NAK until the expected frame comes. A DATA frame whose RSEQ is the APP of its stream moves APP by one and grants its lines
back, applied or refused; EXPORTED and TAKEN set the sessions they name; an ACK takes the acknowledgement and, in order, the state fields;
a NAK replays first; a frame of a reserved type is logged and dropped, and on a NOT-READY port ignored. A frame is kept only whole, by its LEN, with
its checks right (15 R380, R381, R384–R386, R390–R392, R395, R397, R398, R473). That a frame longer than its LEN is discarded is the model's choice
(log entry 147), and so is that a refused record gives its credits back (100). -/
def Obligations.HalyardReceives : Prop :=
  (∀ e ∈ ([(.dataFrame, 0x01), (.refuse, 0x02), (.exported, 0x03), (.taken, 0x04)] : List ((PortId → FrameIn → Instr) × Nat)),
    ∀ (p : PortId) (f : FrameIn) (s : State),
    let l : BitVec 32 := BitVec.ofNat 32 (fieldLe f.bytes 4 4)
    let x := (s.port p).expect
    Claims.Heard s p f e.2 → (f.bytes.getD 1 0).getLsbD 1 = false →
    (l = x → ∃ t, exec (e.1 p f) s = .next t ∧ (t.port p).expect = x + 1 ∧ (t.port p).nakSent = false) ∧
    (l ≠ x → (l - x).getLsbD 31 = true → ∃ t, exec (e.1 p f) s = .next t ∧ (t.port p).expect = x ∧ t.mem = s.mem ∧
      t.sessions = s.sessions ∧ ∃ b, t.out.getLast? = some (.frame p b)) ∧
    (l ≠ x → (l - x).getLsbD 31 = false → ∃ t, exec (e.1 p f) s = .next t ∧ (t.port p).expect = x ∧ t.mem = s.mem ∧
      t.sessions = s.sessions ∧ (t.port p).nakSent = true ∧
      ((s.port p).nakSent = false → ∃ b, t.out.getLast? = some (.frame p b)))) ∧
  (∀ (p : PortId) (f : FrameIn) (s : State),
    let y : Yard := if (f.bytes.getD 1 0).getLsbD 0 then .b else .a
    let n := fieldLe f.bytes 0x0C 4 / 256
    Claims.Heard s p f 0x01 → (f.bytes.getD 1 0).getLsbD 1 = false →
    BitVec.ofNat 32 (fieldLe f.bytes 4 4) = (s.port p).expect →
    let old := (s.port p).inOf y
    ∃ t, exec (.dataFrame p f) s = .next t ∧ let new := (t.port p).inOf y
      new.granted = old.granted + BitVec.ofNat 32 n ∧
      (fieldLe f.bytes 0x28 8 = old.app → new.app = old.app + 1) ∧
      (fieldLe f.bytes 0x28 8 ≠ old.app → new.app = old.app ∧ t.mem = s.mem) ∧
      ((s.port (otherPort p)).partner = (s.port p).partner → (t.port (otherPort p)).inOf y = new)) ∧
  (∀ (p : PortId) (f : FrameIn) (s : State),
    let named := s.namedSessions (fieldLe f.bytes 0x28 2) (fieldLe f.bytes 0x2A 2)
    (f.bytes.getD 1 0).getLsbD 1 = false → BitVec.ofNat 32 (fieldLe f.bytes 4 4) = (s.port p).expect →
    (Claims.Heard s p f 0x03 → ∃ t, exec (.exported p f) s = .next t ∧
      ∀ n ∈ named, (s.session n).replica = true → t.session n = { s.session n with exported := true }) ∧
    (Claims.Heard s p f 0x04 → ∃ t, exec (.taken p f) s = .next t ∧
      ∀ n ∈ named, t.session n = { s.session n with state := 1, replica := true, exported := false })) ∧
  (∀ f : FrameIn, frameKept f = true → let n := fieldLe f.bytes 0x0C 4
    let type := fieldLe f.bytes 0 1
    f.codewordBad = false ∧ f.bytes.length = 64 + n + (if type = 0x01 then 64 else 0) ∧
      (crc32c (f.bytes.take 60)).toNat = fieldLe f.bytes 60 4 ∧
      (64 < f.bytes.length → (crc32c (f.bytes.take (f.bytes.length - 4))).toNat = fieldLe f.bytes (f.bytes.length - 4) 4) ∧
      (type = 0x01 → fieldLe f.bytes (64 + n) 4 = fieldLe f.bytes 4 4 ∧ fieldLe f.bytes (68 + n) 4 = n)) ∧
  (∀ (p : PortId) (f : FrameIn) (s : State), Claims.Heard s p f 0x10 →
    ((f.bytes.getD 1 0).getLsbD 1 = false → exec (.ack p f) s = .next ((s.takeAckseq p f).unsequenced p f)) ∧
    ((f.bytes.getD 1 0).getLsbD 1 = true → exec (.nak p f) s = .next (((s.takeAckseq p f).replayFrom p).unsequenced p f))) ∧
  (∀ (p : PortId) (f : FrameIn) (s : State),
    let a : BitVec 32 := BitVec.ofNat 32 (fieldLe f.bytes 8 4)
    let k := s.port p
    k.waiting = [] → before32 k.peerAck a = true → before32 k.nextLseq a = false →
    s.takeAckseq p f = s.modPort p fun k => { k with
      peerAck := a, replays := 0, replay := k.replay.filter fun e => !(e.1 - a).getLsbD 31 }) ∧
  (∀ (p : PortId) (f : FrameIn) (s : State), let n := fieldLe f.bytes 0 1
    (s.port p).linkUp = true → frameKept f = true → n = 0 ∨ (4 < n ∧ n < 0x10) ∨ 0x12 < n →
    ((s.port p).notReady = true → exec (.reservedFrameReceived p f) s = .next s) ∧
    ((s.port p).notReady = false → ∃ t, exec (.reservedFrameReceived p f) s = .next t ∧ t.ports = s.ports ∧ t.mem = s.mem ∧
      t.steward.nextSeq = s.steward.nextSeq + 1))

/-- Pairing and loss: an accepted HELLO pairs its port with the partner's serial, its sequence starting afresh, the expectations of both the
partner's streams from the HELLO and 768 credits in both directions, and any other only shows the partner present, or, on a port that is
paired, brings its fields; a NOTREADY shows it absent, ends a pairing and fences a stream that it leaves with no port; a port that loses its link
ends its pairing and its replay buffer, and cuts off such a stream; one that trains is up, with a record; an acknowledgement overdue fences its
stream, and so does the loss of every port once ACKTMO is over (15 R383, R387, R388, R391, R393–R396, R472). The model's own choices: that any HELLO ends
the partner's absence (log entry 99), pairing on the receipt of an accepted HELLO (98), and a stream that stays cut until ACKTMO, both directions
starting anew at every pairing (97). -/
def Sys2Proof.Claims.HalyardPairing : Prop :=
  (∀ (p : PortId) (f : FrameIn) (s : State),
    let serial : Word := BitVec.ofNat 64 (fieldLe f.bytes 64 8)
    let k := s.port p
    let accepts := k.inForce = true ∧ k.notReady = false ∧ (k.pserial = 0 ∨ k.pserial = serial)
    frameKept f = true → fieldLe f.bytes 0 1 = 0x11 → k.linkUp = true → k.paired = false →
    (accepts → ∃ t, exec (.hello p f) s = .next t ∧ t.port p = { k with
      absent := false, paired := true, partner := serial, nextLseq := 0, expect := 0, peerAck := 0, replay := [], waiting := []
      replays := 0, nakSent := false, heard := if k.partner = serial then k.heard else 0
      inA := ⟨fieldLe f.bytes 72 8, 768, false⟩, inB := ⟨fieldLe f.bytes 80 8, 768, false⟩ } ∧
      ∀ y, (s.port (otherPort p)).partner = 0 ∨ (s.port (otherPort p)).partner = serial ∨ p = ownPort y →
        (t.stream y).limit = 768 ∧ (t.stream y).used = 0 ∧ (t.stream y).cut = false) ∧
    (¬ accepts → exec (.hello p f) s = .next (s.modPort p fun k => { k with absent := false }))) ∧
  (∀ (p : PortId) (f : FrameIn) (s : State), frameKept f = true → fieldLe f.bytes 0 1 = 0x11 → (s.port p).linkUp = true →
    (s.port p).paired = true → exec (.hello p f) s = .next ((s.takeAckseq p f).unsequenced p f)) ∧
  (∀ (p : PortId) (f : FrameIn) (s : State), let k := s.port p
    frameKept f = true → fieldLe f.bytes 0 1 = 0x12 → k.linkUp = true →
    (k.paired = false → exec (.notready p f) s = .next (s.modPort p fun k => { k with absent := true })) ∧
    (k.paired = true → ∃ t, exec (.notready p f) s = .next t ∧ (t.port p).absent = true ∧ (t.port p).paired = false ∧
      (t.port p).replay = [] ∧ (t.port p).linkUp = true ∧
      ∀ y, (s.streamPort y).isSome = true → t.streamPort y = none → (t.stream y).fenced = true)) ∧
  (∀ (p : PortId) (why : DownReason) (s : State), let k := s.port p
    k.linkUp = true → why = .lock ∨ k.paired = true → ∃ t, exec (.portDown p why) s = .next t ∧ (t.port p).linkUp = false ∧
      (t.port p).paired = false ∧ (t.port p).replay = [] ∧ (t.port p).waiting = [] ∧ s.steward.nextSeq < t.steward.nextSeq ∧
      ∀ y, (s.streamPort y).isSome = true → t.streamPort y = none → (t.stream y).cut = true) ∧
  (∀ (p : PortId) (s : State), (s.port p).linkUp = false → s.steward.standby = false → s.steward.stage ≠ 0 →
    ∃ t, exec (.portUp p) s = .next t ∧ t.port p = { s.port p with linkUp := true } ∧
      t.steward.nextSeq = s.steward.nextSeq + 1) ∧
  (∀ (y : Yard) (s : State), (s.stream y).cut = true ∨ (∃ e ∈ s.unsettled y, e.written = true) → ∃ t, exec (.acktmoExpiry y) s = .next t ∧
    (t.stream y).fenced = true) ∧
  (∀ (y : Yard) (reason : Nat) (s : State), (s.stream y).fenced = false → let t := s.fence y reason
    (t.stream y).fenced = true ∧ t.steward.nextSeq = s.steward.nextSeq + 1 ∧ t.mem = s.mem ∧ t.sessions = s.sessions ∧
      ∀ x, x ≠ y → t.stream x = s.stream x)

/-- Ports: what they send, pairing and loss. -/
def Obligations.HalyardPorts : Prop := Claims.HalyardSends ∧ Claims.HalyardPairing

/-! ## The steward: single faults, self-steering, start and reset -/

/-- Every segment of `s` that accepts writes, under a number that no segment past its seal point carries, is gone in `t`. -/
def Sys2Proof.Claims.RolledBack (s t : State) : Prop :=
  ∀ g ∈ s.segments, g.state = .writing → (∀ x ∈ s.segments, x.segno = g.segno → x.state = .writing) →
    ∀ x ∈ t.segments, x.segno ≠ g.segno

/-- Single faults: the active pair stops and the standby takes over, with none left the module stops; a self-test that passes makes the
failed pair the standby unless it is benched; parity and the watchdog stop their core for paddock, and a parity stop writes nothing more;
eight failures fail a hop, which stops a module whose Gate or yard is then cut off, or else takes the cores out of service that a yard is cut
off from; Gate parity is logged; a phase lost is disabled; a fatal stop deasserts READY, puts both ports in NOT-READY and rolls back every
segment that accepts writes (17 R413, R414, R416–R419, R423, R424). The failover's record at the end of the self-test with the mismatch's
TIMER (log entry 102), a Gate parity error that is only logged (104), and what counts as cut off, with its cores retired at once (103, 165),
are the model's choices. -/
def Obligations.SingleFaults : Prop :=
  (∀ (checker : BitVec 32) (s : State), let w := s.steward
    (w.fatal = true → exec (.lockstepMismatch checker) s = .next s ∧ ∀ code, exec (.fatalStop code) s = .next s) ∧
    (w.fatal = false → w.standbyOut = false → ∃ t, exec (.lockstepMismatch checker) s = .next t ∧ t.steward.pairB = !w.pairB ∧
      t.steward.standbyOut = true ∧ t.steward.testing = some (checker, s.timer) ∧ t = { s with steward := t.steward }) ∧
    (w.fatal = false → w.standbyOut = true → ∃ t, exec (.lockstepMismatch checker) s = .next t ∧ t.steward.fatal = true ∧
      t.pins.ready = false)) ∧
  (∀ (pass : Bool) (s : State) (checker : BitVec 32) (at_ : Word), s.steward.testing = some (checker, at_) →
    ∃ t, exec (.stewardSelfTest pass) s = .next t ∧ t.steward.testing = none ∧ t.mem = s.mem ∧
      t.steward.standbyOut = (!pass || s.steward.benched) ∧
      ∃ r, t.steward.log.getLast? = some r ∧ r.cls = 0x30 ∧ r.sev = 2 ∧ r.time = at_ ∧ r.code = checker ∧
        r.unit = (if s.steward.pairB then 0 else 1) ∧ r.aux = (if pass then 1 else 0)) ∧
  (∀ (c : CoreId) (s : State), s.canIssue c = true →
    (∃ t e, exec (.coreParityStop c) s = .next t ∧ (t.core c).run = .fatal e 3 ∧ (t.core c).sbuf = [] ∧
      (t.core c).fpq = [] ∧ (t.core c).product = none ∧ (t.core c).banks = (s.core c).banks ∧ t.mem = s.mem ∧ ∀ d, d ≠ c → t.core d = s.core d) ∧
    ((s.core c).watched = true → (∃ r ∈ s.requests, (r.takenBy c.val).isSome) →
      ∃ t e, exec (.hangWatchdog c) s = .next t ∧ (t.core c).run = .fatal e 2 ∧ (t.core c).banks = (s.core c).banks ∧
        t.mem = s.mem ∧ ∀ d, d ≠ c → t.core d = s.core d) ∧
    ((s.core c).watched = false ∨ (∀ r ∈ s.requests, (r.takenBy c.val).isSome = false) →
      exec (.hangWatchdog c) s = .next s)) ∧
  (∀ (stop : Fin 17) (decreasing : Bool) (failures : Nat) (s : State),
    (failures < 8 → exec (.aisleCrcFailure stop decreasing failures) s = .next s) ∧
    (8 ≤ failures → (stop, decreasing) ∉ s.steward.failedHops →
      let u := { s with steward := { s.steward with failedHops := s.steward.failedHops ++ [(stop, decreasing)] } }
      ∃ t, exec (.aisleCrcFailure stop decreasing failures) s = .next t ∧ t.steward.failedHops = u.steward.failedHops ∧
        (u.centreCut = true → t.steward.fatal = true ∧ (s.steward.fatal = false → t.pins.ready = false ∧ Claims.RolledBack s t)) ∧
        (u.centreCut = false → (∀ c y, u.cutOff c y = true → (t.core c).run = .paddock) ∧
          ((∀ c y, u.cutOff c y = true → (s.core c).run = .paddock) → t.mem = s.mem ∧ t.cores = s.cores ∧
            ∃ r, t.steward.log.getLast? = some r ∧ r.cls = 0x51 ∧ r.sev = 2 ∧ r.unit.toNat = stop.val ∧
              r.code = (if decreasing then 1 else 0))))) ∧
  (∀ (k : GateParity) (unit : BitVec 16) (s : State), ∃ t, exec (.gateParityError k unit) s = .next t ∧ t.mem = s.mem ∧
    t.requests = s.requests ∧ t.sessions = s.sessions ∧ t.dispatch = s.dispatch ∧
    ∃ r, t.steward.log.getLast? = some r ∧ r.cls = 0x52 ∧ r.sev = 1) ∧
  (∀ (d : Fin 30) (phase : BitVec 8) (s : State), (d, phase) ∉ s.steward.lostPhases →
    ∃ t, exec (.regulatorPhaseFault d phase) s = .next t ∧ t.steward.lostPhases = s.steward.lostPhases ++ [(d, phase)] ∧
      t.mem = s.mem ∧ ∃ r, t.steward.log.getLast? = some r ∧ r.cls = 0x38 ∧ (r.sev = 2 ↔ t.belowRating d = true)) ∧
  (∀ (code : FatalCode) (s : State), s.steward.fatal = false →
    ∃ t, exec (.fatalStop code) s = .next t ∧ t.steward.fatal = true ∧ t.pins.ready = false ∧ t.faultN = true ∧
      (∀ p, (t.port p).notReady = true ∧ (t.port p).paired = false) ∧ Claims.RolledBack s t)

/-- The control loop brings every awake shed to the clock that R445 calls for by temperatures in °C, the power in 0.1 W and the current
limits, and to the voltage of that clock, never above fmax; a clock changes to a step of 25 MHz between 400 MHz and fmax only; the voltage is
the least multiple of 5 mV that covers 0.600 V + 0.125 V/GHz × (f − 0.40 GHz) + 10 mV × loss, with the values of Table 18.7; fmax is the
highest step within the part's limit and SCLKMAX whose voltage is at most 0.95 V (18 R441, R442, R445). -/
def Sys2Proof.Claims.ClocksAndVoltages : Prop :=
  (∀ (r : Readings) (s : State), s.steering = true → let u := s.setAsideMonitors r
    ∃ t, exec (.controlLoopTick r) s = .next t ∧ t.mem = s.mem ∧ t.cores = s.cores ∧ t.steward.power = r.power ∧
      ∀ h : ShedId, let x := t.sheds[h]
        let ty := max (max (u.blockTemp r 12) (u.blockTemp r 13)) (u.blockTemp r 14)
        ((s.sheds[h]).retained = true → x.mhz = (s.sheds[h]).mhz ∧ x.mv = (s.sheds[h]).mv) ∧
        ((s.sheds[h]).retained = false → x.loss = shedLoss r h.val ∧ x.mv = shedVoltage x.mhz x.loss ∧ x.mhz ≤ t.shedFmax h ∧
          x.mhz = min (steer s.steward.policy.tcase s.steward.policy.pcap (t.shedFmax h) (s.sheds[h]).mhz (u.blockTemp r h.val) ty
            (u.blockTemp r 17) r.power (r.ilimit.getLsbD h.val || s.belowRating (shedDomain h))).1 (t.shedFmax h))) ∧
  (∀ (h : ShedId) (mhz : Nat) (s : State),
    let ok := (s.sheds[h]).retained = false ∧ 400 ≤ mhz ∧ mhz % 25 = 0 ∧ mhz ≤ s.shedFmax h
    (¬ ok → exec (.clockChange h mhz) s = .next s) ∧
    (ok → ∃ t, exec (.clockChange h mhz) s = .next t ∧ t.mem = s.mem ∧ t.cores = s.cores ∧ (∀ o, o ≠ h → t.sheds[o] = s.sheds[o]) ∧
      t.sheds[h] = { s.sheds[h] with mhz := mhz, mv := shedVoltage mhz (s.sheds[h]).loss })) ∧
  (∀ mhz loss : Nat, 400 ≤ mhz → let v := shedVoltage mhz loss
    v % 5 = 0 ∧ 24000 + 5 * (mhz - 400) + 4 * loss ≤ 40 * v ∧ 40 * v < 24000 + 5 * (mhz - 400) + 4 * loss + 200) ∧
  (∀ (tcase pcap fmax f p : Nat) (t ty tc : Int) (ilimit : Bool),
    let hot := 110 ≤ t ∨ 110 ≤ ty ∨ (tcase : Int) + 5 ≤ tc
    let warm := 100 ≤ t ∨ (tcase : Int) ≤ tc
    let limited := 10 * pcap < p ∨ ilimit = true
    let free := t ≤ 95 ∧ tc ≤ (tcase : Int) - 2 ∧ p ≤ 10 * (pcap : Int) - 50
    let x := (steer tcase pcap fmax f t ty tc p ilimit).1
    (hot → x = 400) ∧ (¬ hot → warm → x = max 400 (f - 100)) ∧ (¬ hot → ¬ warm → limited → x = max 400 (f - 25)) ∧
    (¬ hot → ¬ warm → ¬ limited → free → x = min fmax (f + 25)) ∧ (¬ hot → ¬ warm → ¬ limited → ¬ free → x = f)) ∧
  (∀ (s : State) (h : ShedId), let f := s.shedFmax h
    f ≤ s.sclkMax ∧ ((s.sheds[h]).loss ≤ 3500 → shedVoltage f (s.sheds[h]).loss ≤ 950) ∧
    ∀ x, f < x → x ≤ s.sclkMax → x % 25 = 0 → 950 < shedVoltage x (s.sheds[h]).loss) ∧
  [400, 1000, 2000, 2600, 3000].map (shedVoltage · 0) = [600, 675, 800, 875, 925] ∧ shedVoltage 3000 250 = 950

/-- A droop of 40 mV or more stretches its shed's clock until it has passed; sessions of a shed throttled for 10 ms go to the core named
once their running requests are complete; a monitor with a loss above 4 % retires its four cores, one group in an hour and never leaving
fewer than 8, with the reading of a monitor set aside replaced by that of the other of its shed; a sensor at 125 °C that is not set aside
asserts THERM_TRIP_N and takes the module into standby (17 R420; 18 R440, R443, R446, R447). Which core takes the sessions and what a
migration waits for are log entry 107, and the owner named for a retired core's sessions 90 and 152: the model's choices. -/
def Sys2Proof.Claims.SteeringEvents : Prop :=
  (∀ (h : ShedId) (fall : Nat) (s : State), (s.sheds[h]).retained = false →
    (fall < 40 → exec (.droopStretch h fall) s = .next s) ∧
    (40 ≤ fall → ∃ t, exec (.droopStretch h fall) s = .next t ∧ (t.sheds[h]).stretched = true ∧
      (t.sheds[h]).mhz = (s.sheds[h]).mhz ∧ t.mem = s.mem ∧ t.cores = s.cores) ∧
    ∃ t, exec (.droopStretchEnd h) s = .next t ∧ t.sheds[h] = { s.sheds[h] with stretched := false } ∧ t.mem = s.mem) ∧
  (∀ (h : ShedId) (src dst : CoreId) (s : State), s.steering = true → s.mayMigrate h src dst = true →
    s.steward.moves.find? (·.1 == src) = none → (s.sheds[shedOf dst]).retained = false →
    let ready := (s.sessionsOf src.val).all fun n => (s.requestsOf n).all Request.queued_
    ((s.sheds[h]).migrations < (s.sheds[h]).throttled / 100) ∧
    (ready = true → ∃ t, exec (.throttleMigration h src dst) s = .next t ∧ t.mem = s.mem ∧
      (∀ n ∈ s.sessionsOf src.val, t.session n = { s.session n with owner := ownerOf dst, held := false }) ∧
      (∀ n, n ∉ s.sessionsOf src.val → t.session n = s.session n) ∧
      (t.sheds[h]).migrations = (s.sheds[h]).throttled / 100) ∧
    (ready = false → ∃ t, exec (.throttleMigration h src dst) s = .next t ∧
      t.steward.moves = s.steward.moves ++ [(src, dst, s.sessionsOf src.val)] ∧
      (t.sheds[h]).migrations = (s.sheds[h]).throttled / 100 ∧
      ∀ n ∈ s.sessionsOf src.val, t.session n = { s.session n with held := true })) ∧
  (∀ (h : ShedId) (src dst : CoreId) (s : State), s.steward.moves.find? (·.1 == src) = none →
    (s.steering = false ∨ s.mayMigrate h src dst = false) → exec (.throttleMigration h src dst) s = .next s) ∧
  (∀ (h : ShedId) (src dst to_ : CoreId) (ns : List Nat) (s : State), s.steering = true →
    s.steward.moves.find? (·.1 == src) = some (src, to_, ns) → (s.sheds[shedOf to_]).retained = false →
    let ready := ns.all fun n => (s.requestsOf n).all Request.queued_
    (ready = true → ∃ t, exec (.throttleMigration h src dst) s = .next t ∧ t.mem = s.mem ∧
      ∀ n ∈ ns, t.session n = { s.session n with owner := ownerOf to_, held := false }) ∧
    (ready = false → exec (.throttleMigration h src dst) s = .next s)) ∧
  (∀ (loss : List Nat) (choice : Owner) (s : State), s.smbusUp = true → s.steward.standby = false → 5 ≤ s.steward.stage →
    ((∀ i, i < 26 → s.processLoss loss i ≤ 400) → exec (.agingCheck loss choice) s = .next s) ∧
    ((∀ c, (s.core c).paddockDue = false) → ∃ t, exec (.agingCheck loss choice) s = .next t ∧
      ∃ g, ∀ c, c ∉ monitorCores g → (t.core c).run = .paddock → (s.core c).run = .paddock) ∧
    (∀ i, s.processLoss loss i = (if i < 24 ∧ 200 + i ∈ s.steward.setAside then loss.getD (if i % 2 = 0 then i + 1 else i - 1) 0
      else loss.getD i 0)) ∧
    (∀ i, i < 24 → 400 < s.processLoss loss i → (∀ j, j < 26 → j ≠ i → s.processLoss loss j ≤ 400) → let n := s.inService (monitorCores i)
      0 < n → s.lockHeld (s.agingLocks loss) = false → locksMeet s.ownLocks (s.agingLocks loss) = false →
      (n + 8 ≤ s.inService (List.finRange 96) → s.agedLately = true → exec (.agingCheck loss choice) s = .next s) ∧
      (n + 8 ≤ s.inService (List.finRange 96) → s.agedLately = false → ∃ t, exec (.agingCheck loss choice) s = .next t ∧
        t.steward.agedAt = some s.timer ∧ ∀ c ∈ monitorCores i, (t.core c).run = .paddock) ∧
      (s.inService (List.finRange 96) < n + 8 → ∃ t, exec (.agingCheck loss choice) s = .next t ∧ t.cores = s.cores ∧
        t.steward.nextSeq = s.steward.nextSeq + 1))) ∧
  (∀ (sensor : Fin 52) (reading : Int) (s : State),
    let trips := 125 ≤ reading ∧ sensor.val ∉ s.steward.setAside ∧ s.pins.vaux = true
    (¬ trips → exec (.thermalTrip sensor reading) s = .next s) ∧
    (trips → s.smbusUp = true → ∃ t, exec (.thermalTrip sensor reading) s = .next t ∧ t.pins.thermTrip = true ∧
      t.pins.ready = false ∧ t.steward.standby = true ∧
      ∃ r, t.steward.log.getLast? = some r ∧ r.cls = 0x45 ∧ r.sev = 4 ∧ r.unit.toNat = sensor.val) ∧
    (trips → s.smbusUp = false → exec (.thermalTrip sensor reading) s = .next { s with pins := { s.pins with thermTrip := true } }))

/-- Supplies: VAUX samples the straps, and with REFCLK it starts ST0; losing either turns every domain off; PWR_EN low or a loss of VIN
leaves a powered module in standby with its log, everything else gone; PWR_EN high leaves standby for ST1 (18 R428, R433, R439, R440;
19 R452, R456–R458). PERST_N, RESTART and the acknowledgement wait lead through a warm reset, with the cores stopped and every segment
rolled back at its start, every request resolved at its end and the L1 caches empty; before the yards are initialised they start cold (18
R429, R432, R433, R436, R441). The module dark without REFCLK (log entry 111), VIN shown by the start (163), what a warm reset keeps and
leaves (112), and an accepted cold RESTART that outlasts a warm trigger (92) are the model's choices. -/
def Obligations.PowerAndReset : Prop :=
  (∀ (b : BitVec 2) (a : BitVec 3) (s : State), s.pins.vaux = false → ∃ t, exec (.vauxApplied b a) s = .next t ∧
    t.pins.vaux = true ∧ t.pins.bootSel = b ∧ t.pins.smbAddr = a ∧ t.steward.jtag = .idcode ∧ t.steward.recoveryState = 0 ∧ (s.pins.refclk = false → t.mem = s.mem ∧ t.steward.log = s.steward.log) ∧
    (s.pins.refclk = true → t.steward.stage = 0 ∧ t.mem = State.reset.mem ∧ t.requests = [] ∧ t.steward.standby = false)) ∧
  (∀ s : State,
    (s.pins.vaux = true → s.pins.refclk = false → ∃ t, exec .refclkStart s = .next t ∧ t.pins.refclk = true ∧ t.steward.stage = 0 ∧
      t.mem = State.reset.mem) ∧
    (s.pins.refclk = true → ∃ t, exec .refclkStop s = .next t ∧ t.pins.refclk = false ∧ t.pins.ready = false ∧
      t.pins.thermTrip = s.pins.thermTrip ∧
      t.mem = State.reset.mem ∧ t.cores = State.reset.cores) ∧
    (s.pins.vaux = true → ∃ t, exec .vauxLoss s = .next t ∧ t.pins.vaux = false ∧ t.pins.ready = false ∧
      t.mem = State.reset.mem ∧ t.cores = State.reset.cores)) ∧
  (∀ s : State,
    (s.powered = true →
      (∃ t, exec .vinLoss s = .next t ∧ t.pins.vin = false ∧ t.steward.standby = true ∧ t.steward.log = s.steward.log ∧
        t.pins.ready = false ∧ t.mem = State.reset.mem ∧ t.requests = []) ∧
      (∃ t, exec .pwrEnLow s = .next t ∧ t.pins.pwrEn = false ∧ t.steward.standby = true ∧ t.steward.log = s.steward.log ∧
        t.pins.ready = false ∧ t.mem = State.reset.mem ∧ t.requests = [])) ∧
    (s.powered = false → exec .vinLoss s = .next { s with pins := { s.pins with vin := false } } ∧
      exec .pwrEnLow s = .next { s with
        pins := { s.pins with pwrEn := false }
        steward := { s.steward with exitDue := false } }) ∧
    (s.pins.pwrEn = false → s.smbusUp = true → s.steward.standby = true →
      (s.pins.vin = true → ∃ t, exec .pwrEnHigh s = .next t ∧ t.pins.pwrEn = true ∧
        t.steward.standby = false ∧ t.steward.stage = 1 ∧ t.steward.kind = .standbyExit ∧ t.timer = 0 ∧ t.pins.thermTrip = false) ∧
      (s.pins.vin = false → exec .pwrEnHigh s = .next { s with
        pins := { s.pins with pwrEn := true }
        steward := { s.steward with exitDue := true } })) ∧
    (s.pins.pwrEn = false → s.steward.standby = false → exec .pwrEnHigh s = .next { s with pins := { s.pins with pwrEn := true } })) ∧
  (∀ (s : State) (e : Instr), e = .perstNAssert ∧ s.pins.perst = false ∨ e = .restartResetBegin ∧ s.steward.pendingReset = some .warm →
    s.powered = true → s.steward.warmWait = false → ¬ (s.steward.bootFailed = true ∧ s.steward.kind = .warm) → let ready := s.yardA.initialised && s.yardB.initialised
    (ready = true → ∃ t, exec e s = .next t ∧ t.steward.warmWait = true ∧ t.pins.ready = false ∧ t.pins.safe = false ∧
      (∀ c, (t.core c).run = .paddock ∨ (t.core c).run = .stopped) ∧
      (∀ c, (s.core c).run = .paddock → (t.core c).run = .paddock) ∧ Claims.RolledBack s t ∧
      (t.steward.pendingReset = some .cold ↔ s.steward.pendingReset = some .cold)) ∧
    (ready = false → ∃ t, exec e s = .next t ∧ t.steward.stage = 0 ∧ t.mem = State.reset.mem ∧ t.requests = [])) ∧
  (∀ s : State, s.pins.perst = false → s.powered = false ∨ s.steward.warmWait = true ∨ (s.steward.bootFailed = true ∧ s.steward.kind = .warm) →
    exec .perstNAssert s = .next { s with pins := { s.pins with perst := true } }) ∧
  (∀ s : State, s.steward.pendingReset = some .cold → s.powered = true →
    ∃ t, exec .restartResetBegin s = .next t ∧ t.steward.stage = 0 ∧ t.mem = State.reset.mem ∧ t.requests = []) ∧
  (∀ s : State, exec .perstNDeassert s = .next { s with pins := { s.pins with perst := false } }) ∧
  (∀ s : State,
    (s.steward.warmWait = false → exec .warmAckWaitEnd s = .next s) ∧
    (s.steward.warmWait = true → ∃ t, exec .warmAckWaitEnd s = .next t ∧ t.steward.stage = 1 ∧ t.steward.kind = .warm ∧
      t.requests = [] ∧ t.segments = [] ∧ (s.segments = [] → t.mem = s.mem) ∧
      (∀ p, (t.port p).notReady = true ∧ (t.port p).paired = false ∧ (t.port p).inForce = false) ∧
      t.l1d = [] ∧ t.l1i = [] ∧
      (∀ h : ShedId, let x := t.sheds[h]
        x.mhz = 400 ∧ x.loss = (s.sheds[h]).loss ∧ x.mv = shedVoltage 400 x.loss ∧ x.retained = false) ∧
      ∀ c, (t.core c).hpcc = (s.core c).hpcc ∧ (t.core c).hdcc = (s.core c).hdcc ∧ (t.core c).spareMap = (s.core c).spareMap ∧
        ((t.core c).run = .paddock ↔ (s.core c).run = .paddock)))

/-- The start stages: ST1 holds a start whose image fails, with FAULT_N asserted, and otherwise loads the policy, the default where the
block is absent or fails, while a warm start keeps the policy in force and logs a block that fails; an image on the external flash is read by
its header and its length; one over SMBus is awaited; ST2 asserts SAFE once PERST_N is released; ST3 takes the ring size, a warm start that changes it emptying both
rings and fencing both streams; ST4 loads the control stores and leaves a core whose store fails twice in paddock; ST5 lets Halyard out of NOT-READY, a warm start re-entering vector 0
of every enabled core with its dispatch enabled; ST6, with both yards initialised, asserts READY (18 R428–R431, R434, R435, R448). The TAP
takes an unassigned code and all ones as BYPASS, boundary instructions act as BYPASS while PWR_EN is high, and IDCODE puts its register out
(18 R436; 19 R453–R455, R459, R460). VIN shown by ST1 (log entry 163), the image's verification as the firmware reports it (113), the warm
start's policy (112), its fences with reason 1 and the AUX of CODE 3 (115), the order of training (116), the CS_ERROR record at ST4 (116), a
cursor 0 outside HPCC's window (155), the recorded fences applied at ST5 (89), and the TAP at the grain of its instruction updates (117, 164)
are the model's choices. -/
def Obligations.StartStages : Prop :=
  (∀ (b : BootReport) (s : State), s.mayEnterSt1 = true →
    let whole := ∃ n, recoveryLen b.external = some n ∧ n ≤ b.external.length
    (s.pins.bootSel = 3 ∨ (s.pins.bootSel ≠ 1 ∧ b.imageOk = false) ∨ (s.pins.bootSel = 2 ∧ ¬ whole) →
      ∃ t, exec (.st1 b) s = .next t ∧ t.steward.stage = 1 ∧ t.pins.vin = true ∧
      t.steward.bootFailed = true ∧ t.steward.st1Done = false ∧ t.faultN = true) ∧
    (s.pins.bootSel = 1 → s.steward.recoveryState ≠ 3 → ∃ t, exec (.st1 b) s = .next t ∧ t.steward.stage = 1 ∧
      t.steward.st1Done = false ∧ t.steward.bootFailed = false ∧ t.steward.recoveryState = 0 ∧ t.steward.recovery = []) ∧
    (s.pins.bootSel = 0 ∨ (s.pins.bootSel = 2 ∧ whole) → b.imageOk = true → ∃ t, exec (.st1 b) s = .next t ∧ t.steward.stage = 1 ∧
      (s.pins.bootSel = 2 → ∀ n, recoveryLen b.external = some n →
        (∀ i, i < n → Sparse.get 0 t.steward.recovery i = b.external.getD i 0) ∧
        .xspiRead 0x6B 0 8 ∈ t.out ∧ .xspiRead 0x6B 0 n ∈ t.out) ∧
      t.steward.st1Done = true ∧ t.steward.bootFailed = false ∧ t.steward.imageLevel = b.level ∧ t.timer = 0 ∧
      t.steward.policy = (match s.steward.policyBlock with
        | some p => if b.policyOk then p else Policy.default
        | none => Policy.default))) ∧
  (∀ (b : BootReport) (s : State), s.steward.stage = 1 → s.powered = true → s.mayEnterSt1 = false → s.steward.kind = .warm →
    s.steward.st1Done = false → s.steward.bootFailed = false → s.pins.bootSel = 0 →
    (b.imageOk = true → ∃ t, exec (.st1 b) s = .next t ∧ t.steward.st1Done = true ∧ t.steward.policy = s.steward.policy ∧ t.timer = s.timer ∧
      (b.containers = [] → s.steward.policyBlock.isSome = true → b.policyOk = false →
        ∃ r, t.steward.log.getLast? = some r ∧ r.cls = 0x46 ∧ r.code = 0)) ∧
    (b.imageOk = false → exec (.st1 b) s = .next { s with steward := { s.steward with bootFailed := true } })) ∧
  (∀ header : List Byte, recoveryLen header = some (fieldLe header 4 4) ↔
    header.take 4 = [0x42, 0x4F, 0x4F, 0x54] ∧ 4096 ≤ fieldLe header 4 4 ∧ fieldLe header 4 4 ≤ 3 * 2 ^ 20) ∧
  (∀ s : State, s.atStage 1 = true → s.steward.st1Done = true →
    (s.pins.perst = true → exec .st2 s = .next s) ∧
    (s.pins.perst = false → ∃ t, exec .st2 s = .next t ∧ t.steward.stage = 2 ∧ t.pins.safe = true ∧ t.mem = s.mem)) ∧
  (∀ (r : TrainReport) (s : State), s.atStage 2 = true → ∃ t, exec (.st3 r) s = .next t ∧ t.steward.stage = 3 ∧
    t.steward.ringlog = s.steward.policy.ringlog ∧ t.yardA.rate = r.slowA ∧ t.yardB.rate = r.slowB ∧
    (s.steward.kind = .warm → s.steward.policy.ringlog ≠ s.steward.ringlog →
      t.streamA.fenced = true ∧ t.streamB.fenced = true ∧ t.yardA.ring.recs = [] ∧ t.yardB.ring.recs = []) ∧
    (s.steward.kind = .warm → s.steward.policy.ringlog = s.steward.ringlog → t.mem = s.mem ∧ t.cores = s.cores)) ∧
  (∀ (first second : List (CoreId × BitVec 13 × BitVec 136)) (s : State), s.atStage 3 = true →
    ∃ t, exec (.st4 first second) s = .next t ∧ t.steward.stage = 4 ∧ ∀ c, (s.core c).run ≠ .paddock →
      (bitsOf c first = [] ∨ bitsOf c second = [] → (t.core c).run = (s.core c).run ∧
        ∀ a, (t.core c).csWord a = parityOf (s.microword a) ++ s.microword a) ∧
      (∀ a x, x ≠ 0 → bitsOf c first = [(a, x)] → bitsOf c second = [(a, x)] → (t.core c).run = .paddock)) ∧
  (∀ s : State, s.atStage 4 = true → ∃ t, exec .st5 s = .next t ∧ t.steward.stage = 5 ∧
    (∀ p, (t.port p).notReady = s.steward.holdDue) ∧
    ∀ c, s.steward.kind = .warm → (s.entry (ownerOf c)).en = true → (s.core c).run ≠ .paddock →
      (s.core c).paddockDue = false → (t.core c).run = .running ∧ (t.core c).pcc = { (s.core c).hpcc with cursor := 0 }) ∧
  (∀ s : State, s.atStage 5 = true → let ready := s.yardA.initialised && s.yardB.initialised
    (ready = false → exec .st6 s = .next s) ∧
    (ready = true → ∃ t, exec .st6 s = .next t ∧ t.steward.stage = 6 ∧ t.pins.ready = (!s.steward.fatal) ∧ t.mem = s.mem)) ∧
  (∀ (ir : BitVec 5) (s : State), s.pins.vaux = true → ∃ t, exec (.jtagInstructionUpdate ir) s = .next t ∧ t.mem = s.mem ∧
    t = { s with steward := t.steward, pins := { s.pins with trstHigh := true }, fresh := t.fresh, out := t.out } ∧
    (ir = 31 ∨ (∀ n, n < 6 → Config.jtagCode n ≠ ir) → t.steward.jtag = .bypass) ∧
    (s.pins.pwrEn = true → t.tapEffect ≠ .extest ∧ t.tapEffect ≠ .clamp ∧ t.tapEffect ≠ .highz) ∧
    (t.tapEffect = .bypass → t.out = s.out ++ [.tdo [false]]) ∧
    (t.tapEffect = .idcode → t.out = s.out ++ [.tdo ((List.range 32).map fun i => idcode.getLsbD i)])) ∧
  idcode.extractLsb' 12 16 = 0x0960 ∧ idcode.getLsbD 0 = true

/-- Self-steering: clocks, voltages, droop, migration, ageing and the thermal trip. -/
def Obligations.SelfSteering : Prop := Claims.ClocksAndVoltages ∧ Claims.SteeringEvents

/-! ## The whole module -/

/-- Every well-formed instruction, in its S16 or its L64 form, is read back from its encoding, whatever halfwords follow;
a first halfword with bits 15 and 14 set begins four halfwords, and any other stands alone (03 R58–R62, R81, Tables 3.1 to 3.4, 3.9 to
3.14). -/
def Obligations.NymelRoundTrip : Prop :=
  (∀ (i : Instr) (c : CoreId) (ws rest : List (BitVec 16)), i.wellFormed = true → encodeWords i = some (c, ws) →
    decodeWords c (ws ++ rest) = some (i, rest)) ∧
  ∀ (c : CoreId) (h : BitVec 16) (ws rest : List (BitVec 16)) (i : Instr), decodeWords c (h :: ws) = some (i, rest) →
    ws = ws.take (if h.getLsbD 15 = true ∧ h.getLsbD 14 = true then 3 else 0) ++ rest ∧
      rest.length + (if h.getLsbD 15 = true ∧ h.getLsbD 14 = true then 3 else 0) = ws.length

/-- A step is the command at the front of the queue with the queue's rest; on an empty queue it is one tick of TIMER, which counts while VAUX
and REFCLK are there (02 R26, 19 R456). The tick is the model's choice (log entry 7). The queue of commands itself is the model's choice as
well (log entries 1, 6). -/
def Obligations.StepRunsTheFrontCommand : Prop :=
  (∀ (i : Instr) (rest : List Instr) (s : State), step { s with pending := i :: rest } = exec i { s with pending := rest }) ∧
  (∀ s : State, s.pending = [] → step s = .next
    { s with timer := s.timer + (if s.pins.vaux = true ∧ s.pins.refclk = true then 1 else 0) })

/-- Every command answers a next state and leaves the commands that wait behind it: the spec gives each an effect. That a command whose
condition does not hold changes nothing is the model's choice (log entry 2). -/
def Obligations.EveryCommandIsCarriedOut : Prop :=
  ∀ (i : Instr) (s : State), ∃ t, exec i s = .next t ∧ t.pending = s.pending

/-- Requests carry numbers of their own, all below the next one. -/
def Sys2Proof.Claims.Numbered (s : State) : Prop :=
  (s.requests.map (·.id)).Nodup ∧ ∀ r ∈ s.requests, r.id < s.nextReq

/-- The state at reset: the values that 02 Tables 2.3 to 2.6, 11 R306, 13, 15 R388 and 18 Table 18.4 give; no command waits, and what every
step keeps holds. The model's choices among these values: the module at the entry to ST6 (log entry 8), an empty log and TIMER 0 (5),
initialised memory (125), and the registers for which the spec gives no value (126). -/
def Obligations.ResetState : Prop :=
  let s := State.reset
  (∀ c, let k := s.core c
    k.status = 0xA ∧ k.flags = 0 ∧ k.fpctl = 0 ∧ k.resume = 0 ∧ k.mh = 0 ∧ k.ml = 0 ∧ k.zone = 3 ∧ k.currency = 0x0000010000000000 ∧
      k.cause = 0 ∧ k.faddr = 0 ∧ k.tcmp = 0xFFFFFFFFFFFFFFFF ∧ k.corecfg = 0x1E ∧ k.jopen = false ∧ k.depth = 0 ∧
      (∀ r, k.getG r = ⟨0, 0, none⟩) ∧ (∀ r, k.getC r = Cap.null)) ∧
  (∀ a, s.mem.byte a = 0 ∧ s.mem.tagAt a = 0xF) ∧ s.steward.stage = 6 ∧ s.pins.ready = true ∧ s.pins.safe = true ∧
  (∀ n, (s.session n).state = 0) ∧ (∀ o : Owner, o.val < 96 → (s.entry o).en = false) ∧ s.requests = [] ∧ s.segments = [] ∧
  s.pending = [] ∧ s.mem.wf ∧ Claims.Numbered s

/-- Every step keeps memory in its canonical form, bytes and tags: addresses rising, nothing listed that initialisation leaves. -/
def Obligations.StepKeepsMemoryForm : Prop :=
  ∀ s t : State, s.mem.wf → step s = .next t → t.mem.wf

/-- Every step keeps the requests' numbers distinct and below the next one. -/
def Obligations.StepKeepsRequestNumbers : Prop :=
  ∀ s t : State, Claims.Numbered s → step s = .next t → Claims.Numbered t

/-- The register file: a write is read back; G0 reads zero tagged BIN, C0 null and P0 true, and writes to them are discarded; a write of one
register leaves every other, and writes of one kind leave the other kinds, the flags and the special registers (02 R15, R16). -/
def Sys2Proof.Claims.RegisterFile : Prop :=
  ∀ (k : Core) (r q : BitVec 4) (p o : BitVec 3) (v : GReg) (x : Cap) (b : Bool),
    (k.setGReg r v).getG q = (if q = r ∧ r ≠ 0 then v else k.getG q) ∧ k.getG 0 = ⟨0, 0, none⟩ ∧
    (k.setC r x).getC q = (if q = r ∧ r ≠ 0 then x else k.getC q) ∧ k.getC 0 = Cap.null ∧
    (k.setP p b).getP o = (if o = p ∧ p ≠ 0 then b else k.getP o) ∧ k.getP 0 = true ∧
    (k.setGReg r v).getC q = k.getC q ∧ (k.setGReg r v).getP o = k.getP o ∧ (k.setC r x).getG q = k.getG q ∧
    (k.setC r x).getP o = k.getP o ∧ (k.setP p b).getG q = k.getG q ∧ (k.setP p b).getC q = k.getC q ∧
    k.setGReg r v = { k with banks := (k.setGReg r v).banks } ∧ k.setC r x = { k with banks := (k.setC r x).banks } ∧
    k.setP p b = { k with banks := (k.setP p b).banks }

/-- The frame around an instruction that completes: the state it starts from differs from the one it is issued in by results landed, by REF
requests and cached lines, and by stores of its own core performed before it reads their words, and the core sees the same bytes in it;
once its effect is done, an instruction in sequence outside a delay slot moves PCC of its own bank past itself and
changes no other register, no other core and no memory, and opens a pair only under DIE; cursor updates change the cursors of the C registers
they name and nothing else (07 R190; 08 R219, R468). When a pair opens is the model's choice (log entry 160), and so are the tags that it keeps
of what may be fetched ahead (119, 120) and which stores are performed before a read (129). -/
def Obligations.InstructionFrame : Prop :=
  Claims.RegisterFile ∧
  (∀ (s u : State) (c : CoreId) (len : Nat) (w : L64) (bad : Bool → Option (Nat × Nat × Nat)) (guard : Core → Bool)
    (opc : Nat) (check : State → Option ExcOperand) (uses : State → List Use), Passes s c opc len w bad guard check uses u →
    u.core c = { (s.core c).landFp with sbuf := (u.core c).sbuf, block := (u.core c).block, resv := (u.core c).resv } ∧
      (∀ d, d ≠ c → u.core d = { s.core d with resv := (u.core d).resv }) ∧
      (∀ b, s.region b = .main → u.byteSeen c b = s.byteSeen c b) ∧
      ((∀ e ∈ (s.core c).sbuf, ∀ x ∈ e.writes, mainBase ≤ x.addr) → ∀ b, b < mainBase → u.mem.byte b = s.mem.byte b) ∧
      u = { s with
        cores := u.cores, sheds := u.sheds, mem := u.mem, refChg := u.refChg, l1d := u.l1d, l1i := u.l1i, yardA := u.yardA
        yardB := u.yardB, steward := u.steward, out := u.out, config := u.config } ∧
      ((s.core c).sbuf = [] → u.mem = s.mem ∧ u.steward = s.steward ∧ u.out = s.out ∧ (u.core c).resv = (s.core c).resv ∧
        ∀ d, d ≠ c → u.core d = s.core d)) ∧
  (∀ (s : State) (c : CoreId) (len : Nat) (d : Done), (s.core c).delay = none → d.flow = .seq → d.after = none →
    let t := s.finished c len d
    let k := d.s.core c
    t = { d.s with cores := t.cores, fresh := t.fresh } ∧ (∀ o, o ≠ c → t.core o = d.s.core o) ∧
      t.core c = { k.setPcc (k.pcc.withCursor (k.pcc.cursor.toNat + len)) with
        delay := none, grace := false, stepSkip := false, wait := none, held := none, engine := none, midPair := (t.core c).midPair
        ahead := (t.core c).ahead } ∧
      ((t.core c).midPair = true → (s.core c).corecfg.getLsbD 4 = true ∧ (s.core c).det = false ∧ (s.core c).midPair = false)) ∧
  (∀ (s : State) (c : CoreId) (os : List Opd), let t := s.updateCursors c os
    t = { s with cores := t.cores } ∧ (∀ o, o ≠ c → t.core o = s.core o) ∧ (t.core c).flags = (s.core c).flags ∧
      (∀ r, (t.core c).getG r = (s.core c).getG r) ∧
      (∀ r, (∀ x ∈ os, x.upd.map Prod.fst ≠ some r) → (t.core c).getC r = (s.core c).getC r) ∧
      ∀ r, let x := (t.core c).getC r
        let y := (s.core c).getC r
        { x with cursor := y.cursor, valid := y.valid } = y)

/-- What writing a destination operand does. A register takes value and tag, a pair two of them, and nothing else changes. A store to the
local bank or a window that port A leaves free writes its bytes at the key of its address, every other byte stays, and no core changes; a
store to main memory leaves every byte outside its own as the core sees it and every register of every core, and the core sees its bytes at
their addresses (02 Table 2.15, R15, R52; 08 R226). How a store waits in the store buffer is the model's choice where the chapter is silent
(log entry 129). -/
def Sys2Proof.Claims.DestinationWrites : Prop :=
  ∀ (s p : State) (c : CoreId) (o : Opd) (n : Nat) (x : Val), s.putValue c o n x = .ok p →
    (∀ r, o.place = .reg r → n ≠ 16 → p = s.modCore c fun k => k.setGReg r ⟨BitVec.ofNat 64 x.v, x.tag, x.mark⟩) ∧
    (∀ r, o.place = .reg r → n = 16 → p = s.modCore c fun k =>
      (k.setG r (BitVec.ofNat 64 x.v) x.tag).setG (r + 1) (BitVec.ofNat 64 (x.v / 2 ^ 64)) x.tag) ∧
    (∀ cap a, o.place = .mem cap a → s.region a.toNat = .own ∨ s.region a.toNat = .window ∧ (s.core c).ports = [] → let key := s.key c a.toNat
      p = { s with mem := p.mem } ∧ (∀ b, b < key ∨ key + n ≤ b → p.mem.byte b = s.mem.byte b) ∧
      ∀ i, i < n → p.mem.byte (key + i) = BitVec.ofNat 8 (x.v / 2 ^ (8 * i))) ∧
    (∀ cap a, o.place = .mem cap a → s.region a.toNat = .main → (∀ b, s.lostAt b = false) → let at_ := a.toNat
      (∀ d, (p.core d).banks = (s.core d).banks ∧ (p.core d).flags = (s.core d).flags ∧ (p.core d).status = (s.core d).status ∧
        (p.core d).shadows = (s.core d).shadows) ∧
      (∀ b, s.region b = .main → b < at_ ∨ at_ + n ≤ b → p.byteSeen c b = s.byteSeen c b) ∧
      ((s.core c).det = false → (s.core c).sbuf.length < 7 → n ≤ 16 → p.mem = s.mem) ∧
      ((s.core c).det = true ∨ (s.core c).sbuf = [] → n ≤ 16 →
        ∀ i, i < n → (p.view c).byte (at_ + i) = BitVec.ofNat 8 (x.v / 2 ^ (8 * i))))

/-- Core control space. The windows of banks 0 to 3 read as Table 7.6 lays them out, bank 0 with zero at 0x0A0 to 0x0F8; a write reaches the G
registers and tags of a bank below the current depth and the shadow slots of banks 1 to the depth, in the fields that are RW, and every other
write is ignored. IPEND, PSQ, BANKST, MARCHST and COREID are read-only; IEN, DBGCTL, IAM, DAM and DAMASK keep what Tables 7.8 and 10.9 let be
written; offsets not listed read zero and ignore writes. An 8 B load reads such a word with tag BIN, and an 8 B store writes it and no tag (02
R51; 07 R202–R204, R212; 10 R281, R282). IPEND.TMR as a level that IEN enables is the model's choice (log entry 12). -/
def Sys2Proof.Claims.CoreControlSpace : Prop :=
  (∀ (s : State) (c : CoreId), let k := s.core c
    let r := s.ccsRead c
    (∀ b : Fin 4, Claims.BankWords k b fun off => r (0x200 * b.val + off)) ∧
    (∀ b : Fin 4, b ≠ 0 → Claims.ShadowWords k.shadows[b] fun off => r (0x200 * b.val + off)) ∧
    (∀ off, 0xA0 ≤ off → off < 0x100 → r off = 0) ∧ (r 0x90).getLsbD 16 = false ∧ (r 0x90).getLsbD 17 = false ∧
    (r 0x800).getLsbD 0 = (decide (k.tcmp ≤ s.timer) && k.ien.getLsbD 0) ∧
    ((r 0x800).getLsbD 1 = true ↔ ∃ x ∈ s.requests, ∃ o n, x.phase = .offered o n ∧ o.val = c.val) ∧
    ((r 0x800).getLsbD 2 = true ↔ k.peers ≠ []) ∧ (r 0x800).getLsbD 3 = k.dbgHalt ∧ (r 0x800).getLsbD 4 = k.steward.isSome ∧
    (∀ i, 5 ≤ i → (r 0x800).getLsbD i = false) ∧ r 0x808 = k.ien.setWidth 64 ∧ r 0x810 = BitVec.ofNat 64 k.peers.length ∧
    (∀ i, (r 0x900).getLsbD i = (decide (i < 5) && k.dbgctl.getLsbD i)) ∧ r 0x908 = k.iam ∧ r 0x910 = k.dam ∧ r 0x918 = k.damask ∧
    (r 0xA00).extractLsb' 0 16 = k.corr ∧ (r 0xA00).extractLsb' 16 16 = k.uncorr ∧
    ((r 0xA00).extractLsb' 32 32).toNat = k.spareMap.length % 2 ^ 32 ∧
    (∀ m, (s.sheds[shedOf c]).march = some m → m.stripe < 128 → m.phase < 4 →
      (m.core = c → (r 0xA08).toNat = 1 + m.stripe * 2 + m.phase * 0x100) ∧ (m.core ≠ c → r 0xA08 = 0)) ∧
    ((s.sheds[shedOf c]).march = none → r 0xA08 = 0) ∧ (r 0xA10).toNat = c.val % 8 + c.val / 8 * 8 + c.val * 128 ∧
    ∀ off, 0x800 ≤ off → off ∉ [0x800, 0x808, 0x810, 0x900, 0x908, 0x910, 0x918, 0xA00, 0xA08, 0xA10] → r off = 0) ∧
  (∀ (k : Core) (v : Word),
    k.ccsWrite 0x808 v = { k with ien := v.setWidth 4 } ∧
    (let t := k.ccsWrite 0x900 v
     t = { k with dbgctl := t.dbgctl, dbgHalt := k.dbgHalt || v.getLsbD 5 } ∧ t.dbgctl.getLsbD 0 = k.dbgctl.getLsbD 0 ∧
       t.dbgctl.getLsbD 5 = false ∧ ∀ i, 1 ≤ i → i < 5 → t.dbgctl.getLsbD i = v.getLsbD i) ∧
    (let t := k.ccsWrite 0x908 v
     t = { k with iam := t.iam } ∧ t.iam.getLsbD 0 = false ∧ ∀ i, 1 ≤ i → t.iam.getLsbD i = v.getLsbD i) ∧
    k.ccsWrite 0x910 v = { k with dam := v } ∧ k.ccsWrite 0x918 v = { k with damask := v } ∧
    ∀ off, 0x800 ≤ off → off ∉ [0x808, 0x900, 0x908, 0x910, 0x918] → k.ccsWrite off v = k) ∧
  (∀ (k : Core) (b : Fin 4) (v : Word), let put (off : Nat) := k.ccsWrite (0x200 * b.val + off) v
    (∀ n : Fin 16, let t := put (8 * n.val)
      (n = 0 ∨ k.depth ≤ b → t = k) ∧
      (n ≠ 0 → b < k.depth → t = { k with banks := k.banks.set b { k.banks[b] with
        g := k.banks[b].g.set n ⟨v, (k.banks[b].g[n]).tag, none⟩ } })) ∧
    (let t := put 0x80
     (k.depth ≤ b → t = k) ∧
     (b < k.depth → (∃ g, t = { k with banks := k.banks.set b { k.banks[b] with g := g } }) ∧
       ∀ n : Fin 16, let x := v.extractLsb' (4 * n.val) 4
         (t.banks[b]).g[n] = if n = 0 then (k.banks[b]).g[n] else
           ⟨((k.banks[b]).g[n]).val, if 6 ≤ x.toNat ∧ x.toNat ≤ 13 then Tag.bin else x, none⟩)) ∧
    (∀ off, off ∈ [0x88, 0x90, 0x98, 0xA8, 0xB8] ∨ (0x100 ≤ off ∧ off < 0x200) → put off = k) ∧
    (∀ off, 0xA0 ≤ off → off < 0x100 → (b = 0 ∨ k.depth < b) → put off = k) ∧
    (b ≠ 0 → b ≤ k.depth → let sh := k.shadows[b]
      let with_ (x : Shadow) : Core := { k with shadows := k.shadows.set b x }
      put 0xA0 = with_ { sh with pcc := sh.pcc.withCursor v.toNat } ∧ put 0xB0 = with_ { sh with tpcc := sh.tpcc.withCursor v.toNat } ∧
      (∃ x : Word, put 0xC0 = with_ { sh with status := x } ∧
        (∀ i, i < 10 → x.getLsbD i = if i = 6 ∨ i = 8 then sh.status.getLsbD i else v.getLsbD i) ∧
        ∀ i, 10 ≤ i → x.getLsbD i = false) ∧
      (∃ x : BitVec 8, put 0xC8 = with_ { sh with pred := x } ∧ x.getLsbD 0 = false ∧ ∀ i, 1 ≤ i → i < 8 → x.getLsbD i = v.getLsbD i) ∧
      put 0xD0 = with_ { sh with resume := v } ∧
      (∃ x : Word, put 0xD8 = with_ { sh with cause := x } ∧ ∀ i, x.getLsbD i = (decide (i < 24) && v.getLsbD i)) ∧
      put 0xE0 = with_ { sh with faddr := v } ∧ put 0xE8 = with_ { sh with mh := v } ∧ put 0xF0 = with_ { sh with ml := v } ∧
      put 0xF8 = with_ { sh with skip := v.setWidth 2 })) ∧
  (∀ (s : State) (c : CoreId) (n off : Nat) (cap : Cap) (x : Val), off < 0x10000 → off % 8 = 0 → (s.core c).ports = [] →
    let o : Opd := { n := n, place := .mem cap (0x02000000 + off : Nat) }
    s.value c o 8 = ⟨(s.ccsRead c off).toNat, Tag.bin, none⟩ ∧
    s.putValue c o 8 x = .ok (s.modCore c fun k => k.ccsWrite off (BitVec.ofNat 64 x.v)))

/-! ### Access checks -/

/-- Step 1 of 02 R45 finds nothing for a range of `len` bytes at `a` that needs some permissions, and SYS in core control space. -/
def Sys2Proof.Claims.CapPasses (cap : Cap) (a : Int) (len : Nat) (need : List Perm) : Prop :=
  cap.valid = true ∧ cap.sealed = false ∧ max cap.base 0 ≤ a ∧ a + len ≤ min cap.top (2 ^ 64) ∧ (∀ p ∈ need, cap.has p = true) ∧
    (a < 0x02010000 → 0x02000000 < a + len → cap.has .sys = true)

/-- Step 2 of 02 R45 finds nothing (R42). -/
def Sys2Proof.Claims.KeysPass (u : State) (c : CoreId) (cap : Cap) (a : Int) (len : Nat) (wr : Bool) : Prop :=
  cap.has .sys = true ∨ ∀ p ∈ mainPages a.toNat len, attrKey (u.pageByte c p) = cap.key ∨ (wr = false ∧ attrRlk (u.pageByte c p) = false)

/-- TAG_FAULT cause of reading a word as a binary-integer operand (02 R28, R29, R31, Tables 2.8, 2.9). -/
def Sys2Proof.Claims.readCause (k : Core) (t : Tag) : Option Nat :=
  if t = Tag.uninit then (if k.uninitTrap then some 1 else none)
  else if t = Tag.poison then some 2
  else if k.tchk = 0 ∨ t = Tag.bin ∨ (k.tchk = 1 ∧ (t = Tag.pdec ∨ t = Tag.text)) then none
  else some 5

/-- A load, here `NOT` from a memory operand in mode 1, meets ranks 6 to 8 in order, each with its vector, cause, operand and address, and
with nothing written: validity, seal, bounds, permission; a read-locked page of another key; the tags of its words; then what no region holds,
a misaligned access of core control space, a core of the shed in paddock, and a yard that is cut off; then a data-address match. -/
def Sys2Proof.Claims.LoadChecks : Prop :=
  ∀ (c : CoreId) (w : L64) (s : State), Claims.Reaches s c 0x00C 8 w (encDV.bad w) → specMode w.sa = 0 → specMode w.sb = 1 →
    (s.core c).ports = [] → let u := s.fetched c 8
    let k := u.core c
    let cap := k.getC (specReg w.sb)
    let a : Int := cap.cursor.toNat + specNum w.sb * 8
    let n := a.toNat
    let lo := max cap.base 0
    let hi := min cap.top (2 ^ 64)
    let f (vec code : Nat) (at_ : Int) := Claims.Faults (.not c (.l64 w)) s c (operandExc 1 vec code at_)
    let tag (i : Nat) := u.tagSeen c (8 * (n / 8 + i))
    let step2 := Claims.CapPasses cap a 8 [.r] ∧ Claims.KeysPass u c cap a 8 false
    let step3 := step2 ∧ ∀ i, i < wordSpan n 8 → Claims.readCause k (tag i) = none
    let finish := match u.region n with
      | .own => 0x80000
      | .window => 0x01400000
      | .ccs => 0x02010000
      | .main => u.journalBase
      | .none => n
    (cap.valid = false → f 6 1 a) ∧
    (cap.valid = true → cap.sealed = true → f 6 2 a) ∧
    (cap.valid = true → cap.sealed = false → a < lo → f 6 3 a) ∧
    (cap.valid = true → cap.sealed = false → lo ≤ a → hi < a + 8 → f 6 3 (max a hi)) ∧
    (cap.valid = true → cap.sealed = false → lo ≤ a → a + 8 ≤ hi →
      (cap.has .r = false ∨ (u.region n = .ccs ∧ cap.has .sys = false)) → f 6 4 a) ∧
    (Claims.CapPasses cap a 8 [.r] → cap.has .sys = false → ∀ p ∈ mainPages n 8, attrKey (u.pageByte c p) ≠ cap.key →
      attrRlk (u.pageByte c p) = true →
      (∀ q ∈ mainPages n 8, q < p → attrKey (u.pageByte c q) = cap.key ∨ attrRlk (u.pageByte c q) = false) →
      f 7 2 (max a (mainBase + p * 4096 : Nat))) ∧
    (step2 → ∀ i code, i < wordSpan n 8 → Claims.readCause k (tag i) = some code → (∀ j, j < i → Claims.readCause k (tag j) = none) →
      f 5 code (max a (8 * (n / 8 + i) : Nat))) ∧
    (step3 → finish < n + 8 → f 1 1 finish) ∧
    (step3 → n + 8 ≤ finish → u.region n = .ccs → n % 8 ≠ 0 → f 1 6 a) ∧
    (step3 → n + 8 ≤ finish → u.region n = .window → ∀ t : CoreId, t ≠ c → t.val = c.val / 8 * 8 + (n - 0x01000000) / 0x80000 →
      (u.core t).run = .paddock → f 1 4 a) ∧
    (step3 → n + 8 ≤ finish → u.region n = .main → u.cutOff c (yardOf n) = true → f 1 5 a) ∧
    (step3 → n + 8 ≤ finish → u.region n = .own → k.dbgctl.getLsbD 0 = true → k.dbgctl.getLsbD 3 = true → k.depth = 0 →
      ∀ i, i < 8 → ((word (a + i)) ^^^ k.dam) &&& ~~~k.damask = 0 →
      (∀ j, j < i → ((word (a + j)) ^^^ k.dam) &&& ~~~k.damask ≠ 0) →
      Claims.Faults (.not c (.l64 w)) s c (operandExc 3 20 2 (a + i)))

/-- A store, here `MOV` of a register to a memory operand in mode 1: permission W, the page's key, the tag rule of TCHK = 3, and on a
journaled page JRN and a segment that accepts writes (02 R32, R42, R45; 12 R313). -/
def Sys2Proof.Claims.StoreChecks : Prop :=
  ∀ (c : CoreId) (w : L64) (s : State), Claims.Reaches s c 0x000 8 w (encDV.bad w) → specMode w.sa = 1 → specMode w.sb = 0 →
    (s.core c).ports = [] → let u := s.fetched c 8
    let k := u.core c
    let cap := k.getC (specReg w.sa)
    let a : Int := cap.cursor.toNat + specNum w.sa * 8
    let n := a.toNat
    let f (vec code : Nat) (at_ : Int) := Claims.Faults (.mov c (.l64 w)) s c (operandExc 0 vec code at_)
    let src := (k.getG (specReg w.sb)).tag
    let new := if src = Tag.capl ∨ src = Tag.caph ∨ src = Tag.code then Tag.bin else src
    let cur := u.tagSeen c n
    let clash := k.tchk = 3 ∧ cur ≠ new ∧ cur ≠ Tag.bin ∧ cur ≠ Tag.uninit ∧ cur ≠ Tag.poison
    let step2 := Claims.CapPasses cap a 8 [.w] ∧ Claims.KeysPass u c cap a 8 true
    (cap.valid = false → f 6 1 a) ∧
    (Claims.CapPasses cap a 8 [] → cap.has .w = false → f 6 4 a) ∧
    (Claims.CapPasses cap a 8 [.w] → cap.has .sys = false → ∀ p ∈ mainPages n 8, attrKey (u.pageByte c p) ≠ cap.key →
      (∀ q ∈ mainPages n 8, q < p → attrKey (u.pageByte c q) = cap.key) → f 7 1 (max a (mainBase + p * 4096 : Nat))) ∧
    (step2 → n % 8 = 0 → clash → f 5 6 a) ∧
    (step2 → n % 8 = 0 → ¬ clash → ∀ p ∈ mainPages n 8, attrJrn (u.attr p) = true →
      (cap.has .jrn = false → f 21 2 a) ∧ (cap.has .jrn = true → u.writingSegment c = none → f 21 1 a))

/-- The other checks: `TAGGET` of an address that is not 8 B aligned, an atomic on core control space, and the registers of a string
instruction, here `SFIL`: the tag of its count, a count of 2^48 or more, and a resume with a count of zero (02 R34, R466; 04 R113; 06 R153,
R179). -/
def Sys2Proof.Claims.OtherChecks : Prop :=
  (∀ (c : CoreId) (w : L64) (s : State), Claims.Reaches s c 0x298 8 w (({ a := .d, b := .m, c := .unused } : Enc).bad w) →
    specMode w.sa = 0 → specMode w.sb = 1 → (s.core c).ports = [] → let u := s.fetched c 8
    let cap := (u.core c).getC (specReg w.sb)
    let a : Int := cap.cursor.toNat + specNum w.sb * 8
    Claims.CapPasses cap a 8 [.r] → Claims.KeysPass u c cap a 8 false →
    ((u.core c).uninitTrap = false ∨ ∀ i, i < wordSpan a.toNat 8 → u.tagSeen c (8 * (a.toNat / 8 + i)) ≠ Tag.uninit) → a % 8 ≠ 0 →
    Claims.Faults (.tagget c w) s c (operandExc 1 8 4 a)) ∧
  (∀ (c : CoreId) (w : L64) (s : State), Claims.Reaches s c 0x2D8 8 w (({ a := .w, b := .p, c := .unused } : Enc).bad w) →
    specMode w.sa = 1 → (s.core c).ports = [] → let u := s.fetched c 8
    let cap := (u.core c).getC (specReg w.sa)
    let a : Int := cap.cursor.toNat + specNum w.sa
    Claims.CapPasses cap a 1 [.r, .w] → u.region a.toNat = .ccs → Claims.Faults (.tas c w) s c (operandExc 0 1 3 a)) ∧
  (∀ (c : CoreId) (w : L64) (s : State),
    Claims.Reaches s c 0x187 8 w (({ a := .w, b := .unused, c := .raw, zero := fun w => rawAux w == 0 } : Enc).bad w) →
    let k := (s.fetched c 8).core c
    let g := k.getG (rawCount w)
    g.mark = none →
    (∀ code, Claims.readCause k (if g.tag = Tag.uninit then Tag.bin else g.tag) = some code →
      Claims.Faults (.sfil c w) s c (operandExc 2 5 code 0)) ∧
    (Claims.readCause k (if g.tag = Tag.uninit then Tag.bin else g.tag) = none → g.tag ≠ Tag.uninit →
      (2 ^ 48 ≤ g.val.toNat → Claims.Faults (.sfil c w) s c (operandExc 2 4 7 k.pcc.cursor.toNat)) ∧
      (g.val = 0 → k.resume ≠ 0 → Claims.Faults (.sfil c w) s c (operandExc 3 4 8 k.pcc.cursor.toNat))))

/-- What writing a destination operand does, and what core control space reads and keeps. -/
def Obligations.OperandWrites : Prop := Claims.DestinationWrites ∧ Claims.CoreControlSpace

/-- The faults of the access checks: vector, cause, operand and address of each, in their order, with nothing of the instruction done (02 R45; 07 R188, R190, Table 7.2). The order among the checks of rank 7 is log entry 15, the operand of a register fault 18, FADDR 17, and the operand of a data-address match 169: the model's choices. -/
def Obligations.AccessChecks : Prop := Claims.LoadChecks ∧ Claims.StoreChecks ∧ Claims.OtherChecks
end

