-- ==== Sys2Proof/Laws/Checks.lean ====
section
/-! SUPPORT. The cyclic redundancy checks as a loop over natural numbers that the kernel evaluates in constant depth. -/

namespace Sys2Proof

open Sys2Proof.Machine

/-- A bit string through a check, the register a number. -/
def crcLoop (poly : Nat) : List Bool → Nat → Nat
  | [], r => r
  | b :: t, 0 => crcLoop poly t (if b then poly else 0)
  | b :: t, r + 1 => crcLoop poly t (if ((r + 1).testBit 0) != b then ((r + 1) / 2) ^^^ poly else (r + 1) / 2)

/-- Bits of a byte string in the order of a check. -/
def byteBits (bs : List Byte) : List Bool := bs.flatMap fun b => bitsLsb 8 b.toNat

theorem crcLoop_cons (poly : Nat) (b : Bool) (t : List Bool) (r : Nat) :
    crcLoop poly (b :: t) r = crcLoop poly t (if (r.testBit 0) != b then (r / 2) ^^^ poly else r / 2) := by
  cases r with
  | zero => cases b <;> simp [crcLoop]
  | succ r => rfl

theorem crcBits_toNat {w : Nat} (poly reg : BitVec w) (bits : List Bool) :
    (crcBits poly reg bits).toNat = crcLoop poly.toNat bits reg.toNat := by
  induction bits generalizing reg with
  | nil => rfl
  | cons b t ih =>
    rw [crcLoop_cons, crcBits, List.foldl_cons, ← crcBits, ih]
    congr 1
    unfold crcBit
    by_cases h : (reg.getLsbD 0 != b) = true
    · rw [if_pos h, if_pos (by simpa [BitVec.getLsbD] using h)]
      simp [BitVec.toNat_xor, BitVec.toNat_ushiftRight, Nat.shiftRight_eq_div_pow]
    · rw [if_neg h, if_neg (by simpa [BitVec.getLsbD] using h)]
      simp [BitVec.toNat_ushiftRight, Nat.shiftRight_eq_div_pow]

theorem crcBits_append {w : Nat} (poly reg : BitVec w) (a b : List Bool) :
    crcBits poly (crcBits poly reg a) b = crcBits poly reg (a ++ b) := by
  simp [crcBits]

theorem crcBytes_eq {w : Nat} (poly reg : BitVec w) (bs : List Byte) : crcBytes poly reg bs = crcBits poly reg (byteBits bs) := by
  induction bs generalizing reg with
  | nil => rfl
  | cons b t ih => rw [crcBytes, List.foldl_cons, ← crcBytes, ih, crcBits_append]; rfl

theorem crcBits_eq {w : Nat} (poly reg : BitVec w) (bits : List Bool) :
    crcBits poly reg bits = BitVec.ofNat w (crcLoop poly.toNat bits reg.toNat) := by
  rw [← crcBits_toNat, BitVec.ofNat_toNat, BitVec.setWidth_eq]

/-- The check of a frame. -/
theorem crc32c_eq (bs : List Byte) : crc32c bs = BitVec.ofNat 32 (crcLoop 0x82F63B78 (byteBits bs) 0xFFFFFFFF) ^^^ 0xFFFFFFFF := by
  rw [crc32c, crcBytes_eq, crcBits_eq]
  rfl

/-- The check of a journal record. -/
theorem crc64_eq (bs : List Byte) :
    crc64 bs = BitVec.ofNat 64 (crcLoop 0xC96C5795D7870F42 (byteBits bs) 0xFFFFFFFFFFFFFFFF) ^^^ 0xFFFFFFFFFFFFFFFF := by
  rw [crc64, crcBytes_eq, crcBits_eq]
  rfl

/-- The check of a metadata chunk. -/
theorem crc16_eq (n : YLine) (bs : List Byte) :
    crc16 n bs = BitVec.ofNat 16 (crcLoop 0x8408 (bitsLsb 28 n.toNat ++ byteBits bs) 0xFFFF) := by
  rw [crc16, crcBytes_eq, crcBits_append, crcBits_eq]
  rfl

/-- The check of a data chunk. -/
theorem crc14_eq (n : YLine) (bs : List Byte) (tags : List Tag) :
    crc14 n bs tags = BitVec.ofNat 14 (crcLoop 0x2D01 (bitsLsb 28 n.toNat ++ byteBits bs ++ tags.flatMap fun t => bitsLsb 4 t.toNat) 0x3FFF) := by
  have fold : ∀ (r : BitVec 14) (l : List Tag), l.foldl (fun r t => crcBits 0x2D01 r (bitsLsb 4 t.toNat)) r =
      crcBits 0x2D01 r (l.flatMap fun t => bitsLsb 4 t.toNat) := by
    intro r l
    induction l generalizing r with
    | nil => rfl
    | cons t l ih => rw [List.foldl_cons, ih, List.flatMap_cons, crcBits_append]
  show List.foldl _ _ _ = _
  rw [fold, crcBytes_eq, crcBits_append, crcBits_append, crcBits_eq]
  rfl

end Sys2Proof
end

