-- ==== Sys2Proof/Laws/State.lean ====
section
/-! SUPPORT. What the named updates of State leave: one lemma per field that an update does not touch, so that no proof unfolds one. -/

namespace Sys2Proof.Machine

open Sys2Proof

/-! ## State.setCore -/

@[simp] theorem State.setCore_sheds (s : State) (c : CoreId) (k : Core) : (s.setCore c k).sheds = s.sheds := rfl
@[simp] theorem State.setCore_mem (s : State) (c : CoreId) (k : Core) : (s.setCore c k).mem = s.mem := rfl
@[simp] theorem State.setCore_refChg (s : State) (c : CoreId) (k : Core) : (s.setCore c k).refChg = s.refChg := rfl
@[simp] theorem State.setCore_l1d (s : State) (c : CoreId) (k : Core) : (s.setCore c k).l1d = s.l1d := rfl
@[simp] theorem State.setCore_l1i (s : State) (c : CoreId) (k : Core) : (s.setCore c k).l1i = s.l1i := rfl
@[simp] theorem State.setCore_yardA (s : State) (c : CoreId) (k : Core) : (s.setCore c k).yardA = s.yardA := rfl
@[simp] theorem State.setCore_yardB (s : State) (c : CoreId) (k : Core) : (s.setCore c k).yardB = s.yardB := rfl
@[simp] theorem State.setCore_segCounter (s : State) (c : CoreId) (k : Core) : (s.setCore c k).segCounter = s.segCounter := rfl
@[simp] theorem State.setCore_segments (s : State) (c : CoreId) (k : Core) : (s.setCore c k).segments = s.segments := rfl
@[simp] theorem State.setCore_sessions (s : State) (c : CoreId) (k : Core) : (s.setCore c k).sessions = s.sessions := rfl
@[simp] theorem State.setCore_sqs (s : State) (c : CoreId) (k : Core) : (s.setCore c k).sqs = s.sqs := rfl
@[simp] theorem State.setCore_cqs (s : State) (c : CoreId) (k : Core) : (s.setCore c k).cqs = s.cqs := rfl
@[simp] theorem State.setCore_qerr (s : State) (c : CoreId) (k : Core) : (s.setCore c k).qerr = s.qerr := rfl
@[simp] theorem State.setCore_qen (s : State) (c : CoreId) (k : Core) : (s.setCore c k).qen = s.qen := rfl
@[simp] theorem State.setCore_d3hot (s : State) (c : CoreId) (k : Core) : (s.setCore c k).d3hot = s.d3hot := rfl
@[simp] theorem State.setCore_mbvec (s : State) (c : CoreId) (k : Core) : (s.setCore c k).mbvec = s.mbvec := rfl
@[simp] theorem State.setCore_msix (s : State) (c : CoreId) (k : Core) : (s.setCore c k).msix = s.msix := rfl
@[simp] theorem State.setCore_config (s : State) (c : CoreId) (k : Core) : (s.setCore c k).config = s.config := rfl
@[simp] theorem State.setCore_lastSq (s : State) (c : CoreId) (k : Core) : (s.setCore c k).lastSq = s.lastSq := rfl
@[simp] theorem State.setCore_requests (s : State) (c : CoreId) (k : Core) : (s.setCore c k).requests = s.requests := rfl
@[simp] theorem State.setCore_nextReq (s : State) (c : CoreId) (k : Core) : (s.setCore c k).nextReq = s.nextReq := rfl
@[simp] theorem State.setCore_nextOrder (s : State) (c : CoreId) (k : Core) : (s.setCore c k).nextOrder = s.nextOrder := rfl
@[simp] theorem State.setCore_outcomes (s : State) (c : CoreId) (k : Core) : (s.setCore c k).outcomes = s.outcomes := rfl
@[simp] theorem State.setCore_dispatch (s : State) (c : CoreId) (k : Core) : (s.setCore c k).dispatch = s.dispatch := rfl
@[simp] theorem State.setCore_mailboxes (s : State) (c : CoreId) (k : Core) : (s.setCore c k).mailboxes = s.mailboxes := rfl
@[simp] theorem State.setCore_nextRing (s : State) (c : CoreId) (k : Core) : (s.setCore c k).nextRing = s.nextRing := rfl
@[simp] theorem State.setCore_ports (s : State) (c : CoreId) (k : Core) : (s.setCore c k).ports = s.ports := rfl
@[simp] theorem State.setCore_streamA (s : State) (c : CoreId) (k : Core) : (s.setCore c k).streamA = s.streamA := rfl
@[simp] theorem State.setCore_streamB (s : State) (c : CoreId) (k : Core) : (s.setCore c k).streamB = s.streamB := rfl
@[simp] theorem State.setCore_steward (s : State) (c : CoreId) (k : Core) : (s.setCore c k).steward = s.steward := rfl
@[simp] theorem State.setCore_pins (s : State) (c : CoreId) (k : Core) : (s.setCore c k).pins = s.pins := rfl
@[simp] theorem State.setCore_timer (s : State) (c : CoreId) (k : Core) : (s.setCore c k).timer = s.timer := rfl
@[simp] theorem State.setCore_out (s : State) (c : CoreId) (k : Core) : (s.setCore c k).out = s.out := rfl
@[simp] theorem State.setCore_fresh (s : State) (c : CoreId) (k : Core) : (s.setCore c k).fresh = s.fresh := rfl
@[simp] theorem State.setCore_pending (s : State) (c : CoreId) (k : Core) : (s.setCore c k).pending = s.pending := rfl

/-! ## State.modCore -/

@[simp] theorem State.modCore_sheds (s : State) (c : CoreId) (f : Core → Core) : (s.modCore c f).sheds = s.sheds := rfl
@[simp] theorem State.modCore_mem (s : State) (c : CoreId) (f : Core → Core) : (s.modCore c f).mem = s.mem := rfl
@[simp] theorem State.modCore_refChg (s : State) (c : CoreId) (f : Core → Core) : (s.modCore c f).refChg = s.refChg := rfl
@[simp] theorem State.modCore_l1d (s : State) (c : CoreId) (f : Core → Core) : (s.modCore c f).l1d = s.l1d := rfl
@[simp] theorem State.modCore_l1i (s : State) (c : CoreId) (f : Core → Core) : (s.modCore c f).l1i = s.l1i := rfl
@[simp] theorem State.modCore_yardA (s : State) (c : CoreId) (f : Core → Core) : (s.modCore c f).yardA = s.yardA := rfl
@[simp] theorem State.modCore_yardB (s : State) (c : CoreId) (f : Core → Core) : (s.modCore c f).yardB = s.yardB := rfl
@[simp] theorem State.modCore_segCounter (s : State) (c : CoreId) (f : Core → Core) : (s.modCore c f).segCounter = s.segCounter := rfl
@[simp] theorem State.modCore_segments (s : State) (c : CoreId) (f : Core → Core) : (s.modCore c f).segments = s.segments := rfl
@[simp] theorem State.modCore_sessions (s : State) (c : CoreId) (f : Core → Core) : (s.modCore c f).sessions = s.sessions := rfl
@[simp] theorem State.modCore_sqs (s : State) (c : CoreId) (f : Core → Core) : (s.modCore c f).sqs = s.sqs := rfl
@[simp] theorem State.modCore_cqs (s : State) (c : CoreId) (f : Core → Core) : (s.modCore c f).cqs = s.cqs := rfl
@[simp] theorem State.modCore_qerr (s : State) (c : CoreId) (f : Core → Core) : (s.modCore c f).qerr = s.qerr := rfl
@[simp] theorem State.modCore_qen (s : State) (c : CoreId) (f : Core → Core) : (s.modCore c f).qen = s.qen := rfl
@[simp] theorem State.modCore_d3hot (s : State) (c : CoreId) (f : Core → Core) : (s.modCore c f).d3hot = s.d3hot := rfl
@[simp] theorem State.modCore_mbvec (s : State) (c : CoreId) (f : Core → Core) : (s.modCore c f).mbvec = s.mbvec := rfl
@[simp] theorem State.modCore_msix (s : State) (c : CoreId) (f : Core → Core) : (s.modCore c f).msix = s.msix := rfl
@[simp] theorem State.modCore_config (s : State) (c : CoreId) (f : Core → Core) : (s.modCore c f).config = s.config := rfl
@[simp] theorem State.modCore_lastSq (s : State) (c : CoreId) (f : Core → Core) : (s.modCore c f).lastSq = s.lastSq := rfl
@[simp] theorem State.modCore_requests (s : State) (c : CoreId) (f : Core → Core) : (s.modCore c f).requests = s.requests := rfl
@[simp] theorem State.modCore_nextReq (s : State) (c : CoreId) (f : Core → Core) : (s.modCore c f).nextReq = s.nextReq := rfl
@[simp] theorem State.modCore_nextOrder (s : State) (c : CoreId) (f : Core → Core) : (s.modCore c f).nextOrder = s.nextOrder := rfl
@[simp] theorem State.modCore_outcomes (s : State) (c : CoreId) (f : Core → Core) : (s.modCore c f).outcomes = s.outcomes := rfl
@[simp] theorem State.modCore_dispatch (s : State) (c : CoreId) (f : Core → Core) : (s.modCore c f).dispatch = s.dispatch := rfl
@[simp] theorem State.modCore_mailboxes (s : State) (c : CoreId) (f : Core → Core) : (s.modCore c f).mailboxes = s.mailboxes := rfl
@[simp] theorem State.modCore_nextRing (s : State) (c : CoreId) (f : Core → Core) : (s.modCore c f).nextRing = s.nextRing := rfl
@[simp] theorem State.modCore_ports (s : State) (c : CoreId) (f : Core → Core) : (s.modCore c f).ports = s.ports := rfl
@[simp] theorem State.modCore_streamA (s : State) (c : CoreId) (f : Core → Core) : (s.modCore c f).streamA = s.streamA := rfl
@[simp] theorem State.modCore_streamB (s : State) (c : CoreId) (f : Core → Core) : (s.modCore c f).streamB = s.streamB := rfl
@[simp] theorem State.modCore_steward (s : State) (c : CoreId) (f : Core → Core) : (s.modCore c f).steward = s.steward := rfl
@[simp] theorem State.modCore_pins (s : State) (c : CoreId) (f : Core → Core) : (s.modCore c f).pins = s.pins := rfl
@[simp] theorem State.modCore_timer (s : State) (c : CoreId) (f : Core → Core) : (s.modCore c f).timer = s.timer := rfl
@[simp] theorem State.modCore_out (s : State) (c : CoreId) (f : Core → Core) : (s.modCore c f).out = s.out := rfl
@[simp] theorem State.modCore_fresh (s : State) (c : CoreId) (f : Core → Core) : (s.modCore c f).fresh = s.fresh := rfl
@[simp] theorem State.modCore_pending (s : State) (c : CoreId) (f : Core → Core) : (s.modCore c f).pending = s.pending := rfl

/-! ## State.modShed -/

@[simp] theorem State.modShed_cores (s : State) (h : ShedId) (f : Shed → Shed) : (s.modShed h f).cores = s.cores := rfl
@[simp] theorem State.modShed_mem (s : State) (h : ShedId) (f : Shed → Shed) : (s.modShed h f).mem = s.mem := rfl
@[simp] theorem State.modShed_refChg (s : State) (h : ShedId) (f : Shed → Shed) : (s.modShed h f).refChg = s.refChg := rfl
@[simp] theorem State.modShed_l1d (s : State) (h : ShedId) (f : Shed → Shed) : (s.modShed h f).l1d = s.l1d := rfl
@[simp] theorem State.modShed_l1i (s : State) (h : ShedId) (f : Shed → Shed) : (s.modShed h f).l1i = s.l1i := rfl
@[simp] theorem State.modShed_yardA (s : State) (h : ShedId) (f : Shed → Shed) : (s.modShed h f).yardA = s.yardA := rfl
@[simp] theorem State.modShed_yardB (s : State) (h : ShedId) (f : Shed → Shed) : (s.modShed h f).yardB = s.yardB := rfl
@[simp] theorem State.modShed_segCounter (s : State) (h : ShedId) (f : Shed → Shed) : (s.modShed h f).segCounter = s.segCounter := rfl
@[simp] theorem State.modShed_segments (s : State) (h : ShedId) (f : Shed → Shed) : (s.modShed h f).segments = s.segments := rfl
@[simp] theorem State.modShed_sessions (s : State) (h : ShedId) (f : Shed → Shed) : (s.modShed h f).sessions = s.sessions := rfl
@[simp] theorem State.modShed_sqs (s : State) (h : ShedId) (f : Shed → Shed) : (s.modShed h f).sqs = s.sqs := rfl
@[simp] theorem State.modShed_cqs (s : State) (h : ShedId) (f : Shed → Shed) : (s.modShed h f).cqs = s.cqs := rfl
@[simp] theorem State.modShed_qerr (s : State) (h : ShedId) (f : Shed → Shed) : (s.modShed h f).qerr = s.qerr := rfl
@[simp] theorem State.modShed_qen (s : State) (h : ShedId) (f : Shed → Shed) : (s.modShed h f).qen = s.qen := rfl
@[simp] theorem State.modShed_d3hot (s : State) (h : ShedId) (f : Shed → Shed) : (s.modShed h f).d3hot = s.d3hot := rfl
@[simp] theorem State.modShed_mbvec (s : State) (h : ShedId) (f : Shed → Shed) : (s.modShed h f).mbvec = s.mbvec := rfl
@[simp] theorem State.modShed_msix (s : State) (h : ShedId) (f : Shed → Shed) : (s.modShed h f).msix = s.msix := rfl
@[simp] theorem State.modShed_config (s : State) (h : ShedId) (f : Shed → Shed) : (s.modShed h f).config = s.config := rfl
@[simp] theorem State.modShed_lastSq (s : State) (h : ShedId) (f : Shed → Shed) : (s.modShed h f).lastSq = s.lastSq := rfl
@[simp] theorem State.modShed_requests (s : State) (h : ShedId) (f : Shed → Shed) : (s.modShed h f).requests = s.requests := rfl
@[simp] theorem State.modShed_nextReq (s : State) (h : ShedId) (f : Shed → Shed) : (s.modShed h f).nextReq = s.nextReq := rfl
@[simp] theorem State.modShed_nextOrder (s : State) (h : ShedId) (f : Shed → Shed) : (s.modShed h f).nextOrder = s.nextOrder := rfl
@[simp] theorem State.modShed_outcomes (s : State) (h : ShedId) (f : Shed → Shed) : (s.modShed h f).outcomes = s.outcomes := rfl
@[simp] theorem State.modShed_dispatch (s : State) (h : ShedId) (f : Shed → Shed) : (s.modShed h f).dispatch = s.dispatch := rfl
@[simp] theorem State.modShed_mailboxes (s : State) (h : ShedId) (f : Shed → Shed) : (s.modShed h f).mailboxes = s.mailboxes := rfl
@[simp] theorem State.modShed_nextRing (s : State) (h : ShedId) (f : Shed → Shed) : (s.modShed h f).nextRing = s.nextRing := rfl
@[simp] theorem State.modShed_ports (s : State) (h : ShedId) (f : Shed → Shed) : (s.modShed h f).ports = s.ports := rfl
@[simp] theorem State.modShed_streamA (s : State) (h : ShedId) (f : Shed → Shed) : (s.modShed h f).streamA = s.streamA := rfl
@[simp] theorem State.modShed_streamB (s : State) (h : ShedId) (f : Shed → Shed) : (s.modShed h f).streamB = s.streamB := rfl
@[simp] theorem State.modShed_steward (s : State) (h : ShedId) (f : Shed → Shed) : (s.modShed h f).steward = s.steward := rfl
@[simp] theorem State.modShed_pins (s : State) (h : ShedId) (f : Shed → Shed) : (s.modShed h f).pins = s.pins := rfl
@[simp] theorem State.modShed_timer (s : State) (h : ShedId) (f : Shed → Shed) : (s.modShed h f).timer = s.timer := rfl
@[simp] theorem State.modShed_out (s : State) (h : ShedId) (f : Shed → Shed) : (s.modShed h f).out = s.out := rfl
@[simp] theorem State.modShed_fresh (s : State) (h : ShedId) (f : Shed → Shed) : (s.modShed h f).fresh = s.fresh := rfl
@[simp] theorem State.modShed_pending (s : State) (h : ShedId) (f : Shed → Shed) : (s.modShed h f).pending = s.pending := rfl

/-! ## State.modYard -/

@[simp] theorem State.modYard_cores (s : State) (y : Yard) (f : YardState → YardState) : (s.modYard y f).cores = s.cores := by cases y <;> rfl
@[simp] theorem State.modYard_sheds (s : State) (y : Yard) (f : YardState → YardState) : (s.modYard y f).sheds = s.sheds := by cases y <;> rfl
@[simp] theorem State.modYard_mem (s : State) (y : Yard) (f : YardState → YardState) : (s.modYard y f).mem = s.mem := by cases y <;> rfl
@[simp] theorem State.modYard_refChg (s : State) (y : Yard) (f : YardState → YardState) : (s.modYard y f).refChg = s.refChg := by cases y <;> rfl
@[simp] theorem State.modYard_l1d (s : State) (y : Yard) (f : YardState → YardState) : (s.modYard y f).l1d = s.l1d := by cases y <;> rfl
@[simp] theorem State.modYard_l1i (s : State) (y : Yard) (f : YardState → YardState) : (s.modYard y f).l1i = s.l1i := by cases y <;> rfl
@[simp] theorem State.modYard_segCounter (s : State) (y : Yard) (f : YardState → YardState) : (s.modYard y f).segCounter = s.segCounter := by cases y <;> rfl
@[simp] theorem State.modYard_segments (s : State) (y : Yard) (f : YardState → YardState) : (s.modYard y f).segments = s.segments := by cases y <;> rfl
@[simp] theorem State.modYard_sessions (s : State) (y : Yard) (f : YardState → YardState) : (s.modYard y f).sessions = s.sessions := by cases y <;> rfl
@[simp] theorem State.modYard_sqs (s : State) (y : Yard) (f : YardState → YardState) : (s.modYard y f).sqs = s.sqs := by cases y <;> rfl
@[simp] theorem State.modYard_cqs (s : State) (y : Yard) (f : YardState → YardState) : (s.modYard y f).cqs = s.cqs := by cases y <;> rfl
@[simp] theorem State.modYard_qerr (s : State) (y : Yard) (f : YardState → YardState) : (s.modYard y f).qerr = s.qerr := by cases y <;> rfl
@[simp] theorem State.modYard_qen (s : State) (y : Yard) (f : YardState → YardState) : (s.modYard y f).qen = s.qen := by cases y <;> rfl
@[simp] theorem State.modYard_d3hot (s : State) (y : Yard) (f : YardState → YardState) : (s.modYard y f).d3hot = s.d3hot := by cases y <;> rfl
@[simp] theorem State.modYard_mbvec (s : State) (y : Yard) (f : YardState → YardState) : (s.modYard y f).mbvec = s.mbvec := by cases y <;> rfl
@[simp] theorem State.modYard_msix (s : State) (y : Yard) (f : YardState → YardState) : (s.modYard y f).msix = s.msix := by cases y <;> rfl
@[simp] theorem State.modYard_config (s : State) (y : Yard) (f : YardState → YardState) : (s.modYard y f).config = s.config := by cases y <;> rfl
@[simp] theorem State.modYard_lastSq (s : State) (y : Yard) (f : YardState → YardState) : (s.modYard y f).lastSq = s.lastSq := by cases y <;> rfl
@[simp] theorem State.modYard_requests (s : State) (y : Yard) (f : YardState → YardState) : (s.modYard y f).requests = s.requests := by cases y <;> rfl
@[simp] theorem State.modYard_nextReq (s : State) (y : Yard) (f : YardState → YardState) : (s.modYard y f).nextReq = s.nextReq := by cases y <;> rfl
@[simp] theorem State.modYard_nextOrder (s : State) (y : Yard) (f : YardState → YardState) : (s.modYard y f).nextOrder = s.nextOrder := by cases y <;> rfl
@[simp] theorem State.modYard_outcomes (s : State) (y : Yard) (f : YardState → YardState) : (s.modYard y f).outcomes = s.outcomes := by cases y <;> rfl
@[simp] theorem State.modYard_dispatch (s : State) (y : Yard) (f : YardState → YardState) : (s.modYard y f).dispatch = s.dispatch := by cases y <;> rfl
@[simp] theorem State.modYard_mailboxes (s : State) (y : Yard) (f : YardState → YardState) : (s.modYard y f).mailboxes = s.mailboxes := by cases y <;> rfl
@[simp] theorem State.modYard_nextRing (s : State) (y : Yard) (f : YardState → YardState) : (s.modYard y f).nextRing = s.nextRing := by cases y <;> rfl
@[simp] theorem State.modYard_ports (s : State) (y : Yard) (f : YardState → YardState) : (s.modYard y f).ports = s.ports := by cases y <;> rfl
@[simp] theorem State.modYard_streamA (s : State) (y : Yard) (f : YardState → YardState) : (s.modYard y f).streamA = s.streamA := by cases y <;> rfl
@[simp] theorem State.modYard_streamB (s : State) (y : Yard) (f : YardState → YardState) : (s.modYard y f).streamB = s.streamB := by cases y <;> rfl
@[simp] theorem State.modYard_steward (s : State) (y : Yard) (f : YardState → YardState) : (s.modYard y f).steward = s.steward := by cases y <;> rfl
@[simp] theorem State.modYard_pins (s : State) (y : Yard) (f : YardState → YardState) : (s.modYard y f).pins = s.pins := by cases y <;> rfl
@[simp] theorem State.modYard_timer (s : State) (y : Yard) (f : YardState → YardState) : (s.modYard y f).timer = s.timer := by cases y <;> rfl
@[simp] theorem State.modYard_out (s : State) (y : Yard) (f : YardState → YardState) : (s.modYard y f).out = s.out := by cases y <;> rfl
@[simp] theorem State.modYard_fresh (s : State) (y : Yard) (f : YardState → YardState) : (s.modYard y f).fresh = s.fresh := by cases y <;> rfl
@[simp] theorem State.modYard_pending (s : State) (y : Yard) (f : YardState → YardState) : (s.modYard y f).pending = s.pending := by cases y <;> rfl

/-! ## State.modStream -/

@[simp] theorem State.modStream_cores (s : State) (y : Yard) (f : MirrorStream → MirrorStream) : (s.modStream y f).cores = s.cores := by cases y <;> rfl
@[simp] theorem State.modStream_sheds (s : State) (y : Yard) (f : MirrorStream → MirrorStream) : (s.modStream y f).sheds = s.sheds := by cases y <;> rfl
@[simp] theorem State.modStream_mem (s : State) (y : Yard) (f : MirrorStream → MirrorStream) : (s.modStream y f).mem = s.mem := by cases y <;> rfl
@[simp] theorem State.modStream_refChg (s : State) (y : Yard) (f : MirrorStream → MirrorStream) : (s.modStream y f).refChg = s.refChg := by cases y <;> rfl
@[simp] theorem State.modStream_l1d (s : State) (y : Yard) (f : MirrorStream → MirrorStream) : (s.modStream y f).l1d = s.l1d := by cases y <;> rfl
@[simp] theorem State.modStream_l1i (s : State) (y : Yard) (f : MirrorStream → MirrorStream) : (s.modStream y f).l1i = s.l1i := by cases y <;> rfl
@[simp] theorem State.modStream_yardA (s : State) (y : Yard) (f : MirrorStream → MirrorStream) : (s.modStream y f).yardA = s.yardA := by cases y <;> rfl
@[simp] theorem State.modStream_yardB (s : State) (y : Yard) (f : MirrorStream → MirrorStream) : (s.modStream y f).yardB = s.yardB := by cases y <;> rfl
@[simp] theorem State.modStream_segCounter (s : State) (y : Yard) (f : MirrorStream → MirrorStream) : (s.modStream y f).segCounter = s.segCounter := by cases y <;> rfl
@[simp] theorem State.modStream_segments (s : State) (y : Yard) (f : MirrorStream → MirrorStream) : (s.modStream y f).segments = s.segments := by cases y <;> rfl
@[simp] theorem State.modStream_sessions (s : State) (y : Yard) (f : MirrorStream → MirrorStream) : (s.modStream y f).sessions = s.sessions := by cases y <;> rfl
@[simp] theorem State.modStream_sqs (s : State) (y : Yard) (f : MirrorStream → MirrorStream) : (s.modStream y f).sqs = s.sqs := by cases y <;> rfl
@[simp] theorem State.modStream_cqs (s : State) (y : Yard) (f : MirrorStream → MirrorStream) : (s.modStream y f).cqs = s.cqs := by cases y <;> rfl
@[simp] theorem State.modStream_qerr (s : State) (y : Yard) (f : MirrorStream → MirrorStream) : (s.modStream y f).qerr = s.qerr := by cases y <;> rfl
@[simp] theorem State.modStream_qen (s : State) (y : Yard) (f : MirrorStream → MirrorStream) : (s.modStream y f).qen = s.qen := by cases y <;> rfl
@[simp] theorem State.modStream_d3hot (s : State) (y : Yard) (f : MirrorStream → MirrorStream) : (s.modStream y f).d3hot = s.d3hot := by cases y <;> rfl
@[simp] theorem State.modStream_mbvec (s : State) (y : Yard) (f : MirrorStream → MirrorStream) : (s.modStream y f).mbvec = s.mbvec := by cases y <;> rfl
@[simp] theorem State.modStream_msix (s : State) (y : Yard) (f : MirrorStream → MirrorStream) : (s.modStream y f).msix = s.msix := by cases y <;> rfl
@[simp] theorem State.modStream_config (s : State) (y : Yard) (f : MirrorStream → MirrorStream) : (s.modStream y f).config = s.config := by cases y <;> rfl
@[simp] theorem State.modStream_lastSq (s : State) (y : Yard) (f : MirrorStream → MirrorStream) : (s.modStream y f).lastSq = s.lastSq := by cases y <;> rfl
@[simp] theorem State.modStream_requests (s : State) (y : Yard) (f : MirrorStream → MirrorStream) : (s.modStream y f).requests = s.requests := by cases y <;> rfl
@[simp] theorem State.modStream_nextReq (s : State) (y : Yard) (f : MirrorStream → MirrorStream) : (s.modStream y f).nextReq = s.nextReq := by cases y <;> rfl
@[simp] theorem State.modStream_nextOrder (s : State) (y : Yard) (f : MirrorStream → MirrorStream) : (s.modStream y f).nextOrder = s.nextOrder := by cases y <;> rfl
@[simp] theorem State.modStream_outcomes (s : State) (y : Yard) (f : MirrorStream → MirrorStream) : (s.modStream y f).outcomes = s.outcomes := by cases y <;> rfl
@[simp] theorem State.modStream_dispatch (s : State) (y : Yard) (f : MirrorStream → MirrorStream) : (s.modStream y f).dispatch = s.dispatch := by cases y <;> rfl
@[simp] theorem State.modStream_mailboxes (s : State) (y : Yard) (f : MirrorStream → MirrorStream) : (s.modStream y f).mailboxes = s.mailboxes := by cases y <;> rfl
@[simp] theorem State.modStream_nextRing (s : State) (y : Yard) (f : MirrorStream → MirrorStream) : (s.modStream y f).nextRing = s.nextRing := by cases y <;> rfl
@[simp] theorem State.modStream_ports (s : State) (y : Yard) (f : MirrorStream → MirrorStream) : (s.modStream y f).ports = s.ports := by cases y <;> rfl
@[simp] theorem State.modStream_steward (s : State) (y : Yard) (f : MirrorStream → MirrorStream) : (s.modStream y f).steward = s.steward := by cases y <;> rfl
@[simp] theorem State.modStream_pins (s : State) (y : Yard) (f : MirrorStream → MirrorStream) : (s.modStream y f).pins = s.pins := by cases y <;> rfl
@[simp] theorem State.modStream_timer (s : State) (y : Yard) (f : MirrorStream → MirrorStream) : (s.modStream y f).timer = s.timer := by cases y <;> rfl
@[simp] theorem State.modStream_out (s : State) (y : Yard) (f : MirrorStream → MirrorStream) : (s.modStream y f).out = s.out := by cases y <;> rfl
@[simp] theorem State.modStream_fresh (s : State) (y : Yard) (f : MirrorStream → MirrorStream) : (s.modStream y f).fresh = s.fresh := by cases y <;> rfl
@[simp] theorem State.modStream_pending (s : State) (y : Yard) (f : MirrorStream → MirrorStream) : (s.modStream y f).pending = s.pending := by cases y <;> rfl

/-! ## State.modPort -/

@[simp] theorem State.modPort_cores (s : State) (p : PortId) (f : Port → Port) : (s.modPort p f).cores = s.cores := rfl
@[simp] theorem State.modPort_sheds (s : State) (p : PortId) (f : Port → Port) : (s.modPort p f).sheds = s.sheds := rfl
@[simp] theorem State.modPort_mem (s : State) (p : PortId) (f : Port → Port) : (s.modPort p f).mem = s.mem := rfl
@[simp] theorem State.modPort_refChg (s : State) (p : PortId) (f : Port → Port) : (s.modPort p f).refChg = s.refChg := rfl
@[simp] theorem State.modPort_l1d (s : State) (p : PortId) (f : Port → Port) : (s.modPort p f).l1d = s.l1d := rfl
@[simp] theorem State.modPort_l1i (s : State) (p : PortId) (f : Port → Port) : (s.modPort p f).l1i = s.l1i := rfl
@[simp] theorem State.modPort_yardA (s : State) (p : PortId) (f : Port → Port) : (s.modPort p f).yardA = s.yardA := rfl
@[simp] theorem State.modPort_yardB (s : State) (p : PortId) (f : Port → Port) : (s.modPort p f).yardB = s.yardB := rfl
@[simp] theorem State.modPort_segCounter (s : State) (p : PortId) (f : Port → Port) : (s.modPort p f).segCounter = s.segCounter := rfl
@[simp] theorem State.modPort_segments (s : State) (p : PortId) (f : Port → Port) : (s.modPort p f).segments = s.segments := rfl
@[simp] theorem State.modPort_sessions (s : State) (p : PortId) (f : Port → Port) : (s.modPort p f).sessions = s.sessions := rfl
@[simp] theorem State.modPort_sqs (s : State) (p : PortId) (f : Port → Port) : (s.modPort p f).sqs = s.sqs := rfl
@[simp] theorem State.modPort_cqs (s : State) (p : PortId) (f : Port → Port) : (s.modPort p f).cqs = s.cqs := rfl
@[simp] theorem State.modPort_qerr (s : State) (p : PortId) (f : Port → Port) : (s.modPort p f).qerr = s.qerr := rfl
@[simp] theorem State.modPort_qen (s : State) (p : PortId) (f : Port → Port) : (s.modPort p f).qen = s.qen := rfl
@[simp] theorem State.modPort_d3hot (s : State) (p : PortId) (f : Port → Port) : (s.modPort p f).d3hot = s.d3hot := rfl
@[simp] theorem State.modPort_mbvec (s : State) (p : PortId) (f : Port → Port) : (s.modPort p f).mbvec = s.mbvec := rfl
@[simp] theorem State.modPort_msix (s : State) (p : PortId) (f : Port → Port) : (s.modPort p f).msix = s.msix := rfl
@[simp] theorem State.modPort_config (s : State) (p : PortId) (f : Port → Port) : (s.modPort p f).config = s.config := rfl
@[simp] theorem State.modPort_lastSq (s : State) (p : PortId) (f : Port → Port) : (s.modPort p f).lastSq = s.lastSq := rfl
@[simp] theorem State.modPort_requests (s : State) (p : PortId) (f : Port → Port) : (s.modPort p f).requests = s.requests := rfl
@[simp] theorem State.modPort_nextReq (s : State) (p : PortId) (f : Port → Port) : (s.modPort p f).nextReq = s.nextReq := rfl
@[simp] theorem State.modPort_nextOrder (s : State) (p : PortId) (f : Port → Port) : (s.modPort p f).nextOrder = s.nextOrder := rfl
@[simp] theorem State.modPort_outcomes (s : State) (p : PortId) (f : Port → Port) : (s.modPort p f).outcomes = s.outcomes := rfl
@[simp] theorem State.modPort_dispatch (s : State) (p : PortId) (f : Port → Port) : (s.modPort p f).dispatch = s.dispatch := rfl
@[simp] theorem State.modPort_mailboxes (s : State) (p : PortId) (f : Port → Port) : (s.modPort p f).mailboxes = s.mailboxes := rfl
@[simp] theorem State.modPort_nextRing (s : State) (p : PortId) (f : Port → Port) : (s.modPort p f).nextRing = s.nextRing := rfl
@[simp] theorem State.modPort_streamA (s : State) (p : PortId) (f : Port → Port) : (s.modPort p f).streamA = s.streamA := rfl
@[simp] theorem State.modPort_streamB (s : State) (p : PortId) (f : Port → Port) : (s.modPort p f).streamB = s.streamB := rfl
@[simp] theorem State.modPort_steward (s : State) (p : PortId) (f : Port → Port) : (s.modPort p f).steward = s.steward := rfl
@[simp] theorem State.modPort_pins (s : State) (p : PortId) (f : Port → Port) : (s.modPort p f).pins = s.pins := rfl
@[simp] theorem State.modPort_timer (s : State) (p : PortId) (f : Port → Port) : (s.modPort p f).timer = s.timer := rfl
@[simp] theorem State.modPort_out (s : State) (p : PortId) (f : Port → Port) : (s.modPort p f).out = s.out := rfl
@[simp] theorem State.modPort_fresh (s : State) (p : PortId) (f : Port → Port) : (s.modPort p f).fresh = s.fresh := rfl
@[simp] theorem State.modPort_pending (s : State) (p : PortId) (f : Port → Port) : (s.modPort p f).pending = s.pending := rfl

/-! ## State.modMb -/

@[simp] theorem State.modMb_cores (s : State) (m : MboxId) (f : Mailbox → Mailbox) : (s.modMb m f).cores = s.cores := rfl
@[simp] theorem State.modMb_sheds (s : State) (m : MboxId) (f : Mailbox → Mailbox) : (s.modMb m f).sheds = s.sheds := rfl
@[simp] theorem State.modMb_mem (s : State) (m : MboxId) (f : Mailbox → Mailbox) : (s.modMb m f).mem = s.mem := rfl
@[simp] theorem State.modMb_refChg (s : State) (m : MboxId) (f : Mailbox → Mailbox) : (s.modMb m f).refChg = s.refChg := rfl
@[simp] theorem State.modMb_l1d (s : State) (m : MboxId) (f : Mailbox → Mailbox) : (s.modMb m f).l1d = s.l1d := rfl
@[simp] theorem State.modMb_l1i (s : State) (m : MboxId) (f : Mailbox → Mailbox) : (s.modMb m f).l1i = s.l1i := rfl
@[simp] theorem State.modMb_yardA (s : State) (m : MboxId) (f : Mailbox → Mailbox) : (s.modMb m f).yardA = s.yardA := rfl
@[simp] theorem State.modMb_yardB (s : State) (m : MboxId) (f : Mailbox → Mailbox) : (s.modMb m f).yardB = s.yardB := rfl
@[simp] theorem State.modMb_segCounter (s : State) (m : MboxId) (f : Mailbox → Mailbox) : (s.modMb m f).segCounter = s.segCounter := rfl
@[simp] theorem State.modMb_segments (s : State) (m : MboxId) (f : Mailbox → Mailbox) : (s.modMb m f).segments = s.segments := rfl
@[simp] theorem State.modMb_sessions (s : State) (m : MboxId) (f : Mailbox → Mailbox) : (s.modMb m f).sessions = s.sessions := rfl
@[simp] theorem State.modMb_sqs (s : State) (m : MboxId) (f : Mailbox → Mailbox) : (s.modMb m f).sqs = s.sqs := rfl
@[simp] theorem State.modMb_cqs (s : State) (m : MboxId) (f : Mailbox → Mailbox) : (s.modMb m f).cqs = s.cqs := rfl
@[simp] theorem State.modMb_qerr (s : State) (m : MboxId) (f : Mailbox → Mailbox) : (s.modMb m f).qerr = s.qerr := rfl
@[simp] theorem State.modMb_qen (s : State) (m : MboxId) (f : Mailbox → Mailbox) : (s.modMb m f).qen = s.qen := rfl
@[simp] theorem State.modMb_d3hot (s : State) (m : MboxId) (f : Mailbox → Mailbox) : (s.modMb m f).d3hot = s.d3hot := rfl
@[simp] theorem State.modMb_mbvec (s : State) (m : MboxId) (f : Mailbox → Mailbox) : (s.modMb m f).mbvec = s.mbvec := rfl
@[simp] theorem State.modMb_msix (s : State) (m : MboxId) (f : Mailbox → Mailbox) : (s.modMb m f).msix = s.msix := rfl
@[simp] theorem State.modMb_config (s : State) (m : MboxId) (f : Mailbox → Mailbox) : (s.modMb m f).config = s.config := rfl
@[simp] theorem State.modMb_lastSq (s : State) (m : MboxId) (f : Mailbox → Mailbox) : (s.modMb m f).lastSq = s.lastSq := rfl
@[simp] theorem State.modMb_requests (s : State) (m : MboxId) (f : Mailbox → Mailbox) : (s.modMb m f).requests = s.requests := rfl
@[simp] theorem State.modMb_nextReq (s : State) (m : MboxId) (f : Mailbox → Mailbox) : (s.modMb m f).nextReq = s.nextReq := rfl
@[simp] theorem State.modMb_nextOrder (s : State) (m : MboxId) (f : Mailbox → Mailbox) : (s.modMb m f).nextOrder = s.nextOrder := rfl
@[simp] theorem State.modMb_outcomes (s : State) (m : MboxId) (f : Mailbox → Mailbox) : (s.modMb m f).outcomes = s.outcomes := rfl
@[simp] theorem State.modMb_dispatch (s : State) (m : MboxId) (f : Mailbox → Mailbox) : (s.modMb m f).dispatch = s.dispatch := rfl
@[simp] theorem State.modMb_nextRing (s : State) (m : MboxId) (f : Mailbox → Mailbox) : (s.modMb m f).nextRing = s.nextRing := rfl
@[simp] theorem State.modMb_ports (s : State) (m : MboxId) (f : Mailbox → Mailbox) : (s.modMb m f).ports = s.ports := rfl
@[simp] theorem State.modMb_streamA (s : State) (m : MboxId) (f : Mailbox → Mailbox) : (s.modMb m f).streamA = s.streamA := rfl
@[simp] theorem State.modMb_streamB (s : State) (m : MboxId) (f : Mailbox → Mailbox) : (s.modMb m f).streamB = s.streamB := rfl
@[simp] theorem State.modMb_steward (s : State) (m : MboxId) (f : Mailbox → Mailbox) : (s.modMb m f).steward = s.steward := rfl
@[simp] theorem State.modMb_pins (s : State) (m : MboxId) (f : Mailbox → Mailbox) : (s.modMb m f).pins = s.pins := rfl
@[simp] theorem State.modMb_timer (s : State) (m : MboxId) (f : Mailbox → Mailbox) : (s.modMb m f).timer = s.timer := rfl
@[simp] theorem State.modMb_out (s : State) (m : MboxId) (f : Mailbox → Mailbox) : (s.modMb m f).out = s.out := rfl
@[simp] theorem State.modMb_fresh (s : State) (m : MboxId) (f : Mailbox → Mailbox) : (s.modMb m f).fresh = s.fresh := rfl
@[simp] theorem State.modMb_pending (s : State) (m : MboxId) (f : Mailbox → Mailbox) : (s.modMb m f).pending = s.pending := rfl

/-! ## State.setSession -/

@[simp] theorem State.setSession_cores (s : State) (n : Nat) (x : Session) : (s.setSession n x).cores = s.cores := rfl
@[simp] theorem State.setSession_sheds (s : State) (n : Nat) (x : Session) : (s.setSession n x).sheds = s.sheds := rfl
@[simp] theorem State.setSession_mem (s : State) (n : Nat) (x : Session) : (s.setSession n x).mem = s.mem := rfl
@[simp] theorem State.setSession_refChg (s : State) (n : Nat) (x : Session) : (s.setSession n x).refChg = s.refChg := rfl
@[simp] theorem State.setSession_l1d (s : State) (n : Nat) (x : Session) : (s.setSession n x).l1d = s.l1d := rfl
@[simp] theorem State.setSession_l1i (s : State) (n : Nat) (x : Session) : (s.setSession n x).l1i = s.l1i := rfl
@[simp] theorem State.setSession_yardA (s : State) (n : Nat) (x : Session) : (s.setSession n x).yardA = s.yardA := rfl
@[simp] theorem State.setSession_yardB (s : State) (n : Nat) (x : Session) : (s.setSession n x).yardB = s.yardB := rfl
@[simp] theorem State.setSession_segCounter (s : State) (n : Nat) (x : Session) : (s.setSession n x).segCounter = s.segCounter := rfl
@[simp] theorem State.setSession_segments (s : State) (n : Nat) (x : Session) : (s.setSession n x).segments = s.segments := rfl
@[simp] theorem State.setSession_sqs (s : State) (n : Nat) (x : Session) : (s.setSession n x).sqs = s.sqs := rfl
@[simp] theorem State.setSession_cqs (s : State) (n : Nat) (x : Session) : (s.setSession n x).cqs = s.cqs := rfl
@[simp] theorem State.setSession_qerr (s : State) (n : Nat) (x : Session) : (s.setSession n x).qerr = s.qerr := rfl
@[simp] theorem State.setSession_qen (s : State) (n : Nat) (x : Session) : (s.setSession n x).qen = s.qen := rfl
@[simp] theorem State.setSession_d3hot (s : State) (n : Nat) (x : Session) : (s.setSession n x).d3hot = s.d3hot := rfl
@[simp] theorem State.setSession_mbvec (s : State) (n : Nat) (x : Session) : (s.setSession n x).mbvec = s.mbvec := rfl
@[simp] theorem State.setSession_msix (s : State) (n : Nat) (x : Session) : (s.setSession n x).msix = s.msix := rfl
@[simp] theorem State.setSession_config (s : State) (n : Nat) (x : Session) : (s.setSession n x).config = s.config := rfl
@[simp] theorem State.setSession_lastSq (s : State) (n : Nat) (x : Session) : (s.setSession n x).lastSq = s.lastSq := rfl
@[simp] theorem State.setSession_requests (s : State) (n : Nat) (x : Session) : (s.setSession n x).requests = s.requests := rfl
@[simp] theorem State.setSession_nextReq (s : State) (n : Nat) (x : Session) : (s.setSession n x).nextReq = s.nextReq := rfl
@[simp] theorem State.setSession_nextOrder (s : State) (n : Nat) (x : Session) : (s.setSession n x).nextOrder = s.nextOrder := rfl
@[simp] theorem State.setSession_outcomes (s : State) (n : Nat) (x : Session) : (s.setSession n x).outcomes = s.outcomes := rfl
@[simp] theorem State.setSession_dispatch (s : State) (n : Nat) (x : Session) : (s.setSession n x).dispatch = s.dispatch := rfl
@[simp] theorem State.setSession_mailboxes (s : State) (n : Nat) (x : Session) : (s.setSession n x).mailboxes = s.mailboxes := rfl
@[simp] theorem State.setSession_nextRing (s : State) (n : Nat) (x : Session) : (s.setSession n x).nextRing = s.nextRing := rfl
@[simp] theorem State.setSession_ports (s : State) (n : Nat) (x : Session) : (s.setSession n x).ports = s.ports := rfl
@[simp] theorem State.setSession_streamA (s : State) (n : Nat) (x : Session) : (s.setSession n x).streamA = s.streamA := rfl
@[simp] theorem State.setSession_streamB (s : State) (n : Nat) (x : Session) : (s.setSession n x).streamB = s.streamB := rfl
@[simp] theorem State.setSession_steward (s : State) (n : Nat) (x : Session) : (s.setSession n x).steward = s.steward := rfl
@[simp] theorem State.setSession_pins (s : State) (n : Nat) (x : Session) : (s.setSession n x).pins = s.pins := rfl
@[simp] theorem State.setSession_timer (s : State) (n : Nat) (x : Session) : (s.setSession n x).timer = s.timer := rfl
@[simp] theorem State.setSession_out (s : State) (n : Nat) (x : Session) : (s.setSession n x).out = s.out := rfl
@[simp] theorem State.setSession_fresh (s : State) (n : Nat) (x : Session) : (s.setSession n x).fresh = s.fresh := rfl
@[simp] theorem State.setSession_pending (s : State) (n : Nat) (x : Session) : (s.setSession n x).pending = s.pending := rfl

/-! ## State.modSession -/

@[simp] theorem State.modSession_cores (s : State) (n : Nat) (f : Session → Session) : (s.modSession n f).cores = s.cores := rfl
@[simp] theorem State.modSession_sheds (s : State) (n : Nat) (f : Session → Session) : (s.modSession n f).sheds = s.sheds := rfl
@[simp] theorem State.modSession_mem (s : State) (n : Nat) (f : Session → Session) : (s.modSession n f).mem = s.mem := rfl
@[simp] theorem State.modSession_refChg (s : State) (n : Nat) (f : Session → Session) : (s.modSession n f).refChg = s.refChg := rfl
@[simp] theorem State.modSession_l1d (s : State) (n : Nat) (f : Session → Session) : (s.modSession n f).l1d = s.l1d := rfl
@[simp] theorem State.modSession_l1i (s : State) (n : Nat) (f : Session → Session) : (s.modSession n f).l1i = s.l1i := rfl
@[simp] theorem State.modSession_yardA (s : State) (n : Nat) (f : Session → Session) : (s.modSession n f).yardA = s.yardA := rfl
@[simp] theorem State.modSession_yardB (s : State) (n : Nat) (f : Session → Session) : (s.modSession n f).yardB = s.yardB := rfl
@[simp] theorem State.modSession_segCounter (s : State) (n : Nat) (f : Session → Session) : (s.modSession n f).segCounter = s.segCounter := rfl
@[simp] theorem State.modSession_segments (s : State) (n : Nat) (f : Session → Session) : (s.modSession n f).segments = s.segments := rfl
@[simp] theorem State.modSession_sqs (s : State) (n : Nat) (f : Session → Session) : (s.modSession n f).sqs = s.sqs := rfl
@[simp] theorem State.modSession_cqs (s : State) (n : Nat) (f : Session → Session) : (s.modSession n f).cqs = s.cqs := rfl
@[simp] theorem State.modSession_qerr (s : State) (n : Nat) (f : Session → Session) : (s.modSession n f).qerr = s.qerr := rfl
@[simp] theorem State.modSession_qen (s : State) (n : Nat) (f : Session → Session) : (s.modSession n f).qen = s.qen := rfl
@[simp] theorem State.modSession_d3hot (s : State) (n : Nat) (f : Session → Session) : (s.modSession n f).d3hot = s.d3hot := rfl
@[simp] theorem State.modSession_mbvec (s : State) (n : Nat) (f : Session → Session) : (s.modSession n f).mbvec = s.mbvec := rfl
@[simp] theorem State.modSession_msix (s : State) (n : Nat) (f : Session → Session) : (s.modSession n f).msix = s.msix := rfl
@[simp] theorem State.modSession_config (s : State) (n : Nat) (f : Session → Session) : (s.modSession n f).config = s.config := rfl
@[simp] theorem State.modSession_lastSq (s : State) (n : Nat) (f : Session → Session) : (s.modSession n f).lastSq = s.lastSq := rfl
@[simp] theorem State.modSession_requests (s : State) (n : Nat) (f : Session → Session) : (s.modSession n f).requests = s.requests := rfl
@[simp] theorem State.modSession_nextReq (s : State) (n : Nat) (f : Session → Session) : (s.modSession n f).nextReq = s.nextReq := rfl
@[simp] theorem State.modSession_nextOrder (s : State) (n : Nat) (f : Session → Session) : (s.modSession n f).nextOrder = s.nextOrder := rfl
@[simp] theorem State.modSession_outcomes (s : State) (n : Nat) (f : Session → Session) : (s.modSession n f).outcomes = s.outcomes := rfl
@[simp] theorem State.modSession_dispatch (s : State) (n : Nat) (f : Session → Session) : (s.modSession n f).dispatch = s.dispatch := rfl
@[simp] theorem State.modSession_mailboxes (s : State) (n : Nat) (f : Session → Session) : (s.modSession n f).mailboxes = s.mailboxes := rfl
@[simp] theorem State.modSession_nextRing (s : State) (n : Nat) (f : Session → Session) : (s.modSession n f).nextRing = s.nextRing := rfl
@[simp] theorem State.modSession_ports (s : State) (n : Nat) (f : Session → Session) : (s.modSession n f).ports = s.ports := rfl
@[simp] theorem State.modSession_streamA (s : State) (n : Nat) (f : Session → Session) : (s.modSession n f).streamA = s.streamA := rfl
@[simp] theorem State.modSession_streamB (s : State) (n : Nat) (f : Session → Session) : (s.modSession n f).streamB = s.streamB := rfl
@[simp] theorem State.modSession_steward (s : State) (n : Nat) (f : Session → Session) : (s.modSession n f).steward = s.steward := rfl
@[simp] theorem State.modSession_pins (s : State) (n : Nat) (f : Session → Session) : (s.modSession n f).pins = s.pins := rfl
@[simp] theorem State.modSession_timer (s : State) (n : Nat) (f : Session → Session) : (s.modSession n f).timer = s.timer := rfl
@[simp] theorem State.modSession_out (s : State) (n : Nat) (f : Session → Session) : (s.modSession n f).out = s.out := rfl
@[simp] theorem State.modSession_fresh (s : State) (n : Nat) (f : Session → Session) : (s.modSession n f).fresh = s.fresh := rfl
@[simp] theorem State.modSession_pending (s : State) (n : Nat) (f : Session → Session) : (s.modSession n f).pending = s.pending := rfl

/-! ## State.modSegment -/

@[simp] theorem State.modSegment_cores (s : State) (n : Nat) (f : Segment → Segment) : (s.modSegment n f).cores = s.cores := rfl
@[simp] theorem State.modSegment_sheds (s : State) (n : Nat) (f : Segment → Segment) : (s.modSegment n f).sheds = s.sheds := rfl
@[simp] theorem State.modSegment_mem (s : State) (n : Nat) (f : Segment → Segment) : (s.modSegment n f).mem = s.mem := rfl
@[simp] theorem State.modSegment_refChg (s : State) (n : Nat) (f : Segment → Segment) : (s.modSegment n f).refChg = s.refChg := rfl
@[simp] theorem State.modSegment_l1d (s : State) (n : Nat) (f : Segment → Segment) : (s.modSegment n f).l1d = s.l1d := rfl
@[simp] theorem State.modSegment_l1i (s : State) (n : Nat) (f : Segment → Segment) : (s.modSegment n f).l1i = s.l1i := rfl
@[simp] theorem State.modSegment_yardA (s : State) (n : Nat) (f : Segment → Segment) : (s.modSegment n f).yardA = s.yardA := rfl
@[simp] theorem State.modSegment_yardB (s : State) (n : Nat) (f : Segment → Segment) : (s.modSegment n f).yardB = s.yardB := rfl
@[simp] theorem State.modSegment_segCounter (s : State) (n : Nat) (f : Segment → Segment) : (s.modSegment n f).segCounter = s.segCounter := rfl
@[simp] theorem State.modSegment_sessions (s : State) (n : Nat) (f : Segment → Segment) : (s.modSegment n f).sessions = s.sessions := rfl
@[simp] theorem State.modSegment_sqs (s : State) (n : Nat) (f : Segment → Segment) : (s.modSegment n f).sqs = s.sqs := rfl
@[simp] theorem State.modSegment_cqs (s : State) (n : Nat) (f : Segment → Segment) : (s.modSegment n f).cqs = s.cqs := rfl
@[simp] theorem State.modSegment_qerr (s : State) (n : Nat) (f : Segment → Segment) : (s.modSegment n f).qerr = s.qerr := rfl
@[simp] theorem State.modSegment_qen (s : State) (n : Nat) (f : Segment → Segment) : (s.modSegment n f).qen = s.qen := rfl
@[simp] theorem State.modSegment_d3hot (s : State) (n : Nat) (f : Segment → Segment) : (s.modSegment n f).d3hot = s.d3hot := rfl
@[simp] theorem State.modSegment_mbvec (s : State) (n : Nat) (f : Segment → Segment) : (s.modSegment n f).mbvec = s.mbvec := rfl
@[simp] theorem State.modSegment_msix (s : State) (n : Nat) (f : Segment → Segment) : (s.modSegment n f).msix = s.msix := rfl
@[simp] theorem State.modSegment_config (s : State) (n : Nat) (f : Segment → Segment) : (s.modSegment n f).config = s.config := rfl
@[simp] theorem State.modSegment_lastSq (s : State) (n : Nat) (f : Segment → Segment) : (s.modSegment n f).lastSq = s.lastSq := rfl
@[simp] theorem State.modSegment_requests (s : State) (n : Nat) (f : Segment → Segment) : (s.modSegment n f).requests = s.requests := rfl
@[simp] theorem State.modSegment_nextReq (s : State) (n : Nat) (f : Segment → Segment) : (s.modSegment n f).nextReq = s.nextReq := rfl
@[simp] theorem State.modSegment_nextOrder (s : State) (n : Nat) (f : Segment → Segment) : (s.modSegment n f).nextOrder = s.nextOrder := rfl
@[simp] theorem State.modSegment_outcomes (s : State) (n : Nat) (f : Segment → Segment) : (s.modSegment n f).outcomes = s.outcomes := rfl
@[simp] theorem State.modSegment_dispatch (s : State) (n : Nat) (f : Segment → Segment) : (s.modSegment n f).dispatch = s.dispatch := rfl
@[simp] theorem State.modSegment_mailboxes (s : State) (n : Nat) (f : Segment → Segment) : (s.modSegment n f).mailboxes = s.mailboxes := rfl
@[simp] theorem State.modSegment_nextRing (s : State) (n : Nat) (f : Segment → Segment) : (s.modSegment n f).nextRing = s.nextRing := rfl
@[simp] theorem State.modSegment_ports (s : State) (n : Nat) (f : Segment → Segment) : (s.modSegment n f).ports = s.ports := rfl
@[simp] theorem State.modSegment_streamA (s : State) (n : Nat) (f : Segment → Segment) : (s.modSegment n f).streamA = s.streamA := rfl
@[simp] theorem State.modSegment_streamB (s : State) (n : Nat) (f : Segment → Segment) : (s.modSegment n f).streamB = s.streamB := rfl
@[simp] theorem State.modSegment_steward (s : State) (n : Nat) (f : Segment → Segment) : (s.modSegment n f).steward = s.steward := rfl
@[simp] theorem State.modSegment_pins (s : State) (n : Nat) (f : Segment → Segment) : (s.modSegment n f).pins = s.pins := rfl
@[simp] theorem State.modSegment_timer (s : State) (n : Nat) (f : Segment → Segment) : (s.modSegment n f).timer = s.timer := rfl
@[simp] theorem State.modSegment_out (s : State) (n : Nat) (f : Segment → Segment) : (s.modSegment n f).out = s.out := rfl
@[simp] theorem State.modSegment_fresh (s : State) (n : Nat) (f : Segment → Segment) : (s.modSegment n f).fresh = s.fresh := rfl
@[simp] theorem State.modSegment_pending (s : State) (n : Nat) (f : Segment → Segment) : (s.modSegment n f).pending = s.pending := rfl

/-! ## State.modRequest -/

@[simp] theorem State.modRequest_cores (s : State) (n : BitVec 16) (rid : Word) (f : Request → Request) : (s.modRequest n rid f).cores = s.cores := rfl
@[simp] theorem State.modRequest_sheds (s : State) (n : BitVec 16) (rid : Word) (f : Request → Request) : (s.modRequest n rid f).sheds = s.sheds := rfl
@[simp] theorem State.modRequest_mem (s : State) (n : BitVec 16) (rid : Word) (f : Request → Request) : (s.modRequest n rid f).mem = s.mem := rfl
@[simp] theorem State.modRequest_refChg (s : State) (n : BitVec 16) (rid : Word) (f : Request → Request) : (s.modRequest n rid f).refChg = s.refChg := rfl
@[simp] theorem State.modRequest_l1d (s : State) (n : BitVec 16) (rid : Word) (f : Request → Request) : (s.modRequest n rid f).l1d = s.l1d := rfl
@[simp] theorem State.modRequest_l1i (s : State) (n : BitVec 16) (rid : Word) (f : Request → Request) : (s.modRequest n rid f).l1i = s.l1i := rfl
@[simp] theorem State.modRequest_yardA (s : State) (n : BitVec 16) (rid : Word) (f : Request → Request) : (s.modRequest n rid f).yardA = s.yardA := rfl
@[simp] theorem State.modRequest_yardB (s : State) (n : BitVec 16) (rid : Word) (f : Request → Request) : (s.modRequest n rid f).yardB = s.yardB := rfl
@[simp] theorem State.modRequest_segCounter (s : State) (n : BitVec 16) (rid : Word) (f : Request → Request) : (s.modRequest n rid f).segCounter = s.segCounter := rfl
@[simp] theorem State.modRequest_segments (s : State) (n : BitVec 16) (rid : Word) (f : Request → Request) : (s.modRequest n rid f).segments = s.segments := rfl
@[simp] theorem State.modRequest_sessions (s : State) (n : BitVec 16) (rid : Word) (f : Request → Request) : (s.modRequest n rid f).sessions = s.sessions := rfl
@[simp] theorem State.modRequest_sqs (s : State) (n : BitVec 16) (rid : Word) (f : Request → Request) : (s.modRequest n rid f).sqs = s.sqs := rfl
@[simp] theorem State.modRequest_cqs (s : State) (n : BitVec 16) (rid : Word) (f : Request → Request) : (s.modRequest n rid f).cqs = s.cqs := rfl
@[simp] theorem State.modRequest_qerr (s : State) (n : BitVec 16) (rid : Word) (f : Request → Request) : (s.modRequest n rid f).qerr = s.qerr := rfl
@[simp] theorem State.modRequest_qen (s : State) (n : BitVec 16) (rid : Word) (f : Request → Request) : (s.modRequest n rid f).qen = s.qen := rfl
@[simp] theorem State.modRequest_d3hot (s : State) (n : BitVec 16) (rid : Word) (f : Request → Request) : (s.modRequest n rid f).d3hot = s.d3hot := rfl
@[simp] theorem State.modRequest_mbvec (s : State) (n : BitVec 16) (rid : Word) (f : Request → Request) : (s.modRequest n rid f).mbvec = s.mbvec := rfl
@[simp] theorem State.modRequest_msix (s : State) (n : BitVec 16) (rid : Word) (f : Request → Request) : (s.modRequest n rid f).msix = s.msix := rfl
@[simp] theorem State.modRequest_config (s : State) (n : BitVec 16) (rid : Word) (f : Request → Request) : (s.modRequest n rid f).config = s.config := rfl
@[simp] theorem State.modRequest_lastSq (s : State) (n : BitVec 16) (rid : Word) (f : Request → Request) : (s.modRequest n rid f).lastSq = s.lastSq := rfl
@[simp] theorem State.modRequest_nextReq (s : State) (n : BitVec 16) (rid : Word) (f : Request → Request) : (s.modRequest n rid f).nextReq = s.nextReq := rfl
@[simp] theorem State.modRequest_nextOrder (s : State) (n : BitVec 16) (rid : Word) (f : Request → Request) : (s.modRequest n rid f).nextOrder = s.nextOrder := rfl
@[simp] theorem State.modRequest_outcomes (s : State) (n : BitVec 16) (rid : Word) (f : Request → Request) : (s.modRequest n rid f).outcomes = s.outcomes := rfl
@[simp] theorem State.modRequest_dispatch (s : State) (n : BitVec 16) (rid : Word) (f : Request → Request) : (s.modRequest n rid f).dispatch = s.dispatch := rfl
@[simp] theorem State.modRequest_mailboxes (s : State) (n : BitVec 16) (rid : Word) (f : Request → Request) : (s.modRequest n rid f).mailboxes = s.mailboxes := rfl
@[simp] theorem State.modRequest_nextRing (s : State) (n : BitVec 16) (rid : Word) (f : Request → Request) : (s.modRequest n rid f).nextRing = s.nextRing := rfl
@[simp] theorem State.modRequest_ports (s : State) (n : BitVec 16) (rid : Word) (f : Request → Request) : (s.modRequest n rid f).ports = s.ports := rfl
@[simp] theorem State.modRequest_streamA (s : State) (n : BitVec 16) (rid : Word) (f : Request → Request) : (s.modRequest n rid f).streamA = s.streamA := rfl
@[simp] theorem State.modRequest_streamB (s : State) (n : BitVec 16) (rid : Word) (f : Request → Request) : (s.modRequest n rid f).streamB = s.streamB := rfl
@[simp] theorem State.modRequest_steward (s : State) (n : BitVec 16) (rid : Word) (f : Request → Request) : (s.modRequest n rid f).steward = s.steward := rfl
@[simp] theorem State.modRequest_pins (s : State) (n : BitVec 16) (rid : Word) (f : Request → Request) : (s.modRequest n rid f).pins = s.pins := rfl
@[simp] theorem State.modRequest_timer (s : State) (n : BitVec 16) (rid : Word) (f : Request → Request) : (s.modRequest n rid f).timer = s.timer := rfl
@[simp] theorem State.modRequest_out (s : State) (n : BitVec 16) (rid : Word) (f : Request → Request) : (s.modRequest n rid f).out = s.out := rfl
@[simp] theorem State.modRequest_fresh (s : State) (n : BitVec 16) (rid : Word) (f : Request → Request) : (s.modRequest n rid f).fresh = s.fresh := rfl
@[simp] theorem State.modRequest_pending (s : State) (n : BitVec 16) (rid : Word) (f : Request → Request) : (s.modRequest n rid f).pending = s.pending := rfl

/-! ## State.setEn -/

@[simp] theorem State.setEn_cores (s : State) (c : CoreId) (b : Bool) : (s.setEn c b).cores = s.cores := rfl
@[simp] theorem State.setEn_sheds (s : State) (c : CoreId) (b : Bool) : (s.setEn c b).sheds = s.sheds := rfl
@[simp] theorem State.setEn_mem (s : State) (c : CoreId) (b : Bool) : (s.setEn c b).mem = s.mem := rfl
@[simp] theorem State.setEn_refChg (s : State) (c : CoreId) (b : Bool) : (s.setEn c b).refChg = s.refChg := rfl
@[simp] theorem State.setEn_l1d (s : State) (c : CoreId) (b : Bool) : (s.setEn c b).l1d = s.l1d := rfl
@[simp] theorem State.setEn_l1i (s : State) (c : CoreId) (b : Bool) : (s.setEn c b).l1i = s.l1i := rfl
@[simp] theorem State.setEn_yardA (s : State) (c : CoreId) (b : Bool) : (s.setEn c b).yardA = s.yardA := rfl
@[simp] theorem State.setEn_yardB (s : State) (c : CoreId) (b : Bool) : (s.setEn c b).yardB = s.yardB := rfl
@[simp] theorem State.setEn_segCounter (s : State) (c : CoreId) (b : Bool) : (s.setEn c b).segCounter = s.segCounter := rfl
@[simp] theorem State.setEn_segments (s : State) (c : CoreId) (b : Bool) : (s.setEn c b).segments = s.segments := rfl
@[simp] theorem State.setEn_sessions (s : State) (c : CoreId) (b : Bool) : (s.setEn c b).sessions = s.sessions := rfl
@[simp] theorem State.setEn_sqs (s : State) (c : CoreId) (b : Bool) : (s.setEn c b).sqs = s.sqs := rfl
@[simp] theorem State.setEn_cqs (s : State) (c : CoreId) (b : Bool) : (s.setEn c b).cqs = s.cqs := rfl
@[simp] theorem State.setEn_qerr (s : State) (c : CoreId) (b : Bool) : (s.setEn c b).qerr = s.qerr := rfl
@[simp] theorem State.setEn_qen (s : State) (c : CoreId) (b : Bool) : (s.setEn c b).qen = s.qen := rfl
@[simp] theorem State.setEn_d3hot (s : State) (c : CoreId) (b : Bool) : (s.setEn c b).d3hot = s.d3hot := rfl
@[simp] theorem State.setEn_mbvec (s : State) (c : CoreId) (b : Bool) : (s.setEn c b).mbvec = s.mbvec := rfl
@[simp] theorem State.setEn_msix (s : State) (c : CoreId) (b : Bool) : (s.setEn c b).msix = s.msix := rfl
@[simp] theorem State.setEn_config (s : State) (c : CoreId) (b : Bool) : (s.setEn c b).config = s.config := rfl
@[simp] theorem State.setEn_lastSq (s : State) (c : CoreId) (b : Bool) : (s.setEn c b).lastSq = s.lastSq := rfl
@[simp] theorem State.setEn_requests (s : State) (c : CoreId) (b : Bool) : (s.setEn c b).requests = s.requests := rfl
@[simp] theorem State.setEn_nextReq (s : State) (c : CoreId) (b : Bool) : (s.setEn c b).nextReq = s.nextReq := rfl
@[simp] theorem State.setEn_nextOrder (s : State) (c : CoreId) (b : Bool) : (s.setEn c b).nextOrder = s.nextOrder := rfl
@[simp] theorem State.setEn_outcomes (s : State) (c : CoreId) (b : Bool) : (s.setEn c b).outcomes = s.outcomes := rfl
@[simp] theorem State.setEn_mailboxes (s : State) (c : CoreId) (b : Bool) : (s.setEn c b).mailboxes = s.mailboxes := rfl
@[simp] theorem State.setEn_nextRing (s : State) (c : CoreId) (b : Bool) : (s.setEn c b).nextRing = s.nextRing := rfl
@[simp] theorem State.setEn_ports (s : State) (c : CoreId) (b : Bool) : (s.setEn c b).ports = s.ports := rfl
@[simp] theorem State.setEn_streamA (s : State) (c : CoreId) (b : Bool) : (s.setEn c b).streamA = s.streamA := rfl
@[simp] theorem State.setEn_streamB (s : State) (c : CoreId) (b : Bool) : (s.setEn c b).streamB = s.streamB := rfl
@[simp] theorem State.setEn_steward (s : State) (c : CoreId) (b : Bool) : (s.setEn c b).steward = s.steward := rfl
@[simp] theorem State.setEn_pins (s : State) (c : CoreId) (b : Bool) : (s.setEn c b).pins = s.pins := rfl
@[simp] theorem State.setEn_timer (s : State) (c : CoreId) (b : Bool) : (s.setEn c b).timer = s.timer := rfl
@[simp] theorem State.setEn_out (s : State) (c : CoreId) (b : Bool) : (s.setEn c b).out = s.out := rfl
@[simp] theorem State.setEn_fresh (s : State) (c : CoreId) (b : Bool) : (s.setEn c b).fresh = s.fresh := rfl
@[simp] theorem State.setEn_pending (s : State) (c : CoreId) (b : Bool) : (s.setEn c b).pending = s.pending := rfl

/-! ## State.emit -/

@[simp] theorem State.emit_cores (s : State) (o : Output) : (s.emit o).cores = s.cores := rfl
@[simp] theorem State.emit_sheds (s : State) (o : Output) : (s.emit o).sheds = s.sheds := rfl
@[simp] theorem State.emit_mem (s : State) (o : Output) : (s.emit o).mem = s.mem := rfl
@[simp] theorem State.emit_refChg (s : State) (o : Output) : (s.emit o).refChg = s.refChg := rfl
@[simp] theorem State.emit_l1d (s : State) (o : Output) : (s.emit o).l1d = s.l1d := rfl
@[simp] theorem State.emit_l1i (s : State) (o : Output) : (s.emit o).l1i = s.l1i := rfl
@[simp] theorem State.emit_yardA (s : State) (o : Output) : (s.emit o).yardA = s.yardA := rfl
@[simp] theorem State.emit_yardB (s : State) (o : Output) : (s.emit o).yardB = s.yardB := rfl
@[simp] theorem State.emit_segCounter (s : State) (o : Output) : (s.emit o).segCounter = s.segCounter := rfl
@[simp] theorem State.emit_segments (s : State) (o : Output) : (s.emit o).segments = s.segments := rfl
@[simp] theorem State.emit_sessions (s : State) (o : Output) : (s.emit o).sessions = s.sessions := rfl
@[simp] theorem State.emit_sqs (s : State) (o : Output) : (s.emit o).sqs = s.sqs := rfl
@[simp] theorem State.emit_cqs (s : State) (o : Output) : (s.emit o).cqs = s.cqs := rfl
@[simp] theorem State.emit_qerr (s : State) (o : Output) : (s.emit o).qerr = s.qerr := rfl
@[simp] theorem State.emit_qen (s : State) (o : Output) : (s.emit o).qen = s.qen := rfl
@[simp] theorem State.emit_d3hot (s : State) (o : Output) : (s.emit o).d3hot = s.d3hot := rfl
@[simp] theorem State.emit_mbvec (s : State) (o : Output) : (s.emit o).mbvec = s.mbvec := rfl
@[simp] theorem State.emit_msix (s : State) (o : Output) : (s.emit o).msix = s.msix := rfl
@[simp] theorem State.emit_config (s : State) (o : Output) : (s.emit o).config = s.config := rfl
@[simp] theorem State.emit_lastSq (s : State) (o : Output) : (s.emit o).lastSq = s.lastSq := rfl
@[simp] theorem State.emit_requests (s : State) (o : Output) : (s.emit o).requests = s.requests := rfl
@[simp] theorem State.emit_nextReq (s : State) (o : Output) : (s.emit o).nextReq = s.nextReq := rfl
@[simp] theorem State.emit_nextOrder (s : State) (o : Output) : (s.emit o).nextOrder = s.nextOrder := rfl
@[simp] theorem State.emit_outcomes (s : State) (o : Output) : (s.emit o).outcomes = s.outcomes := rfl
@[simp] theorem State.emit_dispatch (s : State) (o : Output) : (s.emit o).dispatch = s.dispatch := rfl
@[simp] theorem State.emit_mailboxes (s : State) (o : Output) : (s.emit o).mailboxes = s.mailboxes := rfl
@[simp] theorem State.emit_nextRing (s : State) (o : Output) : (s.emit o).nextRing = s.nextRing := rfl
@[simp] theorem State.emit_ports (s : State) (o : Output) : (s.emit o).ports = s.ports := rfl
@[simp] theorem State.emit_streamA (s : State) (o : Output) : (s.emit o).streamA = s.streamA := rfl
@[simp] theorem State.emit_streamB (s : State) (o : Output) : (s.emit o).streamB = s.streamB := rfl
@[simp] theorem State.emit_steward (s : State) (o : Output) : (s.emit o).steward = s.steward := rfl
@[simp] theorem State.emit_pins (s : State) (o : Output) : (s.emit o).pins = s.pins := rfl
@[simp] theorem State.emit_timer (s : State) (o : Output) : (s.emit o).timer = s.timer := rfl
@[simp] theorem State.emit_fresh (s : State) (o : Output) : (s.emit o).fresh = s.fresh := rfl
@[simp] theorem State.emit_pending (s : State) (o : Output) : (s.emit o).pending = s.pending := rfl

/-! ## State.logAt -/

@[simp] theorem State.logAt_cores (s : State) (t : Word) (cls sev : Byte) (unit code aux : Nat) (addr : Word) : (s.logAt t cls sev unit code aux addr).cores = s.cores := rfl
@[simp] theorem State.logAt_sheds (s : State) (t : Word) (cls sev : Byte) (unit code aux : Nat) (addr : Word) : (s.logAt t cls sev unit code aux addr).sheds = s.sheds := rfl
@[simp] theorem State.logAt_mem (s : State) (t : Word) (cls sev : Byte) (unit code aux : Nat) (addr : Word) : (s.logAt t cls sev unit code aux addr).mem = s.mem := rfl
@[simp] theorem State.logAt_refChg (s : State) (t : Word) (cls sev : Byte) (unit code aux : Nat) (addr : Word) : (s.logAt t cls sev unit code aux addr).refChg = s.refChg := rfl
@[simp] theorem State.logAt_l1d (s : State) (t : Word) (cls sev : Byte) (unit code aux : Nat) (addr : Word) : (s.logAt t cls sev unit code aux addr).l1d = s.l1d := rfl
@[simp] theorem State.logAt_l1i (s : State) (t : Word) (cls sev : Byte) (unit code aux : Nat) (addr : Word) : (s.logAt t cls sev unit code aux addr).l1i = s.l1i := rfl
@[simp] theorem State.logAt_yardA (s : State) (t : Word) (cls sev : Byte) (unit code aux : Nat) (addr : Word) : (s.logAt t cls sev unit code aux addr).yardA = s.yardA := rfl
@[simp] theorem State.logAt_yardB (s : State) (t : Word) (cls sev : Byte) (unit code aux : Nat) (addr : Word) : (s.logAt t cls sev unit code aux addr).yardB = s.yardB := rfl
@[simp] theorem State.logAt_segCounter (s : State) (t : Word) (cls sev : Byte) (unit code aux : Nat) (addr : Word) : (s.logAt t cls sev unit code aux addr).segCounter = s.segCounter := rfl
@[simp] theorem State.logAt_segments (s : State) (t : Word) (cls sev : Byte) (unit code aux : Nat) (addr : Word) : (s.logAt t cls sev unit code aux addr).segments = s.segments := rfl
@[simp] theorem State.logAt_sessions (s : State) (t : Word) (cls sev : Byte) (unit code aux : Nat) (addr : Word) : (s.logAt t cls sev unit code aux addr).sessions = s.sessions := rfl
@[simp] theorem State.logAt_sqs (s : State) (t : Word) (cls sev : Byte) (unit code aux : Nat) (addr : Word) : (s.logAt t cls sev unit code aux addr).sqs = s.sqs := rfl
@[simp] theorem State.logAt_cqs (s : State) (t : Word) (cls sev : Byte) (unit code aux : Nat) (addr : Word) : (s.logAt t cls sev unit code aux addr).cqs = s.cqs := rfl
@[simp] theorem State.logAt_qerr (s : State) (t : Word) (cls sev : Byte) (unit code aux : Nat) (addr : Word) : (s.logAt t cls sev unit code aux addr).qerr = s.qerr := rfl
@[simp] theorem State.logAt_qen (s : State) (t : Word) (cls sev : Byte) (unit code aux : Nat) (addr : Word) : (s.logAt t cls sev unit code aux addr).qen = s.qen := rfl
@[simp] theorem State.logAt_d3hot (s : State) (t : Word) (cls sev : Byte) (unit code aux : Nat) (addr : Word) : (s.logAt t cls sev unit code aux addr).d3hot = s.d3hot := rfl
@[simp] theorem State.logAt_mbvec (s : State) (t : Word) (cls sev : Byte) (unit code aux : Nat) (addr : Word) : (s.logAt t cls sev unit code aux addr).mbvec = s.mbvec := rfl
@[simp] theorem State.logAt_msix (s : State) (t : Word) (cls sev : Byte) (unit code aux : Nat) (addr : Word) : (s.logAt t cls sev unit code aux addr).msix = s.msix := rfl
@[simp] theorem State.logAt_lastSq (s : State) (t : Word) (cls sev : Byte) (unit code aux : Nat) (addr : Word) : (s.logAt t cls sev unit code aux addr).lastSq = s.lastSq := rfl
@[simp] theorem State.logAt_requests (s : State) (t : Word) (cls sev : Byte) (unit code aux : Nat) (addr : Word) : (s.logAt t cls sev unit code aux addr).requests = s.requests := rfl
@[simp] theorem State.logAt_nextReq (s : State) (t : Word) (cls sev : Byte) (unit code aux : Nat) (addr : Word) : (s.logAt t cls sev unit code aux addr).nextReq = s.nextReq := rfl
@[simp] theorem State.logAt_nextOrder (s : State) (t : Word) (cls sev : Byte) (unit code aux : Nat) (addr : Word) : (s.logAt t cls sev unit code aux addr).nextOrder = s.nextOrder := rfl
@[simp] theorem State.logAt_outcomes (s : State) (t : Word) (cls sev : Byte) (unit code aux : Nat) (addr : Word) : (s.logAt t cls sev unit code aux addr).outcomes = s.outcomes := rfl
@[simp] theorem State.logAt_dispatch (s : State) (t : Word) (cls sev : Byte) (unit code aux : Nat) (addr : Word) : (s.logAt t cls sev unit code aux addr).dispatch = s.dispatch := rfl
@[simp] theorem State.logAt_mailboxes (s : State) (t : Word) (cls sev : Byte) (unit code aux : Nat) (addr : Word) : (s.logAt t cls sev unit code aux addr).mailboxes = s.mailboxes := rfl
@[simp] theorem State.logAt_nextRing (s : State) (t : Word) (cls sev : Byte) (unit code aux : Nat) (addr : Word) : (s.logAt t cls sev unit code aux addr).nextRing = s.nextRing := rfl
@[simp] theorem State.logAt_ports (s : State) (t : Word) (cls sev : Byte) (unit code aux : Nat) (addr : Word) : (s.logAt t cls sev unit code aux addr).ports = s.ports := rfl
@[simp] theorem State.logAt_streamA (s : State) (t : Word) (cls sev : Byte) (unit code aux : Nat) (addr : Word) : (s.logAt t cls sev unit code aux addr).streamA = s.streamA := rfl
@[simp] theorem State.logAt_streamB (s : State) (t : Word) (cls sev : Byte) (unit code aux : Nat) (addr : Word) : (s.logAt t cls sev unit code aux addr).streamB = s.streamB := rfl
@[simp] theorem State.logAt_pins (s : State) (t : Word) (cls sev : Byte) (unit code aux : Nat) (addr : Word) : (s.logAt t cls sev unit code aux addr).pins = s.pins := rfl
@[simp] theorem State.logAt_timer (s : State) (t : Word) (cls sev : Byte) (unit code aux : Nat) (addr : Word) : (s.logAt t cls sev unit code aux addr).timer = s.timer := rfl
@[simp] theorem State.logAt_fresh (s : State) (t : Word) (cls sev : Byte) (unit code aux : Nat) (addr : Word) : (s.logAt t cls sev unit code aux addr).fresh = s.fresh := rfl
@[simp] theorem State.logAt_pending (s : State) (t : Word) (cls sev : Byte) (unit code aux : Nat) (addr : Word) : (s.logAt t cls sev unit code aux addr).pending = s.pending := rfl

/-! ## State.log -/

@[simp] theorem State.log_cores (s : State) (cls sev : Byte) (unit code aux : Nat) (addr : Word) : (s.log cls sev unit code aux addr).cores = s.cores := rfl
@[simp] theorem State.log_sheds (s : State) (cls sev : Byte) (unit code aux : Nat) (addr : Word) : (s.log cls sev unit code aux addr).sheds = s.sheds := rfl
@[simp] theorem State.log_mem (s : State) (cls sev : Byte) (unit code aux : Nat) (addr : Word) : (s.log cls sev unit code aux addr).mem = s.mem := rfl
@[simp] theorem State.log_refChg (s : State) (cls sev : Byte) (unit code aux : Nat) (addr : Word) : (s.log cls sev unit code aux addr).refChg = s.refChg := rfl
@[simp] theorem State.log_l1d (s : State) (cls sev : Byte) (unit code aux : Nat) (addr : Word) : (s.log cls sev unit code aux addr).l1d = s.l1d := rfl
@[simp] theorem State.log_l1i (s : State) (cls sev : Byte) (unit code aux : Nat) (addr : Word) : (s.log cls sev unit code aux addr).l1i = s.l1i := rfl
@[simp] theorem State.log_yardA (s : State) (cls sev : Byte) (unit code aux : Nat) (addr : Word) : (s.log cls sev unit code aux addr).yardA = s.yardA := rfl
@[simp] theorem State.log_yardB (s : State) (cls sev : Byte) (unit code aux : Nat) (addr : Word) : (s.log cls sev unit code aux addr).yardB = s.yardB := rfl
@[simp] theorem State.log_segCounter (s : State) (cls sev : Byte) (unit code aux : Nat) (addr : Word) : (s.log cls sev unit code aux addr).segCounter = s.segCounter := rfl
@[simp] theorem State.log_segments (s : State) (cls sev : Byte) (unit code aux : Nat) (addr : Word) : (s.log cls sev unit code aux addr).segments = s.segments := rfl
@[simp] theorem State.log_sessions (s : State) (cls sev : Byte) (unit code aux : Nat) (addr : Word) : (s.log cls sev unit code aux addr).sessions = s.sessions := rfl
@[simp] theorem State.log_sqs (s : State) (cls sev : Byte) (unit code aux : Nat) (addr : Word) : (s.log cls sev unit code aux addr).sqs = s.sqs := rfl
@[simp] theorem State.log_cqs (s : State) (cls sev : Byte) (unit code aux : Nat) (addr : Word) : (s.log cls sev unit code aux addr).cqs = s.cqs := rfl
@[simp] theorem State.log_qerr (s : State) (cls sev : Byte) (unit code aux : Nat) (addr : Word) : (s.log cls sev unit code aux addr).qerr = s.qerr := rfl
@[simp] theorem State.log_qen (s : State) (cls sev : Byte) (unit code aux : Nat) (addr : Word) : (s.log cls sev unit code aux addr).qen = s.qen := rfl
@[simp] theorem State.log_d3hot (s : State) (cls sev : Byte) (unit code aux : Nat) (addr : Word) : (s.log cls sev unit code aux addr).d3hot = s.d3hot := rfl
@[simp] theorem State.log_mbvec (s : State) (cls sev : Byte) (unit code aux : Nat) (addr : Word) : (s.log cls sev unit code aux addr).mbvec = s.mbvec := rfl
@[simp] theorem State.log_msix (s : State) (cls sev : Byte) (unit code aux : Nat) (addr : Word) : (s.log cls sev unit code aux addr).msix = s.msix := rfl
@[simp] theorem State.log_lastSq (s : State) (cls sev : Byte) (unit code aux : Nat) (addr : Word) : (s.log cls sev unit code aux addr).lastSq = s.lastSq := rfl
@[simp] theorem State.log_requests (s : State) (cls sev : Byte) (unit code aux : Nat) (addr : Word) : (s.log cls sev unit code aux addr).requests = s.requests := rfl
@[simp] theorem State.log_nextReq (s : State) (cls sev : Byte) (unit code aux : Nat) (addr : Word) : (s.log cls sev unit code aux addr).nextReq = s.nextReq := rfl
@[simp] theorem State.log_nextOrder (s : State) (cls sev : Byte) (unit code aux : Nat) (addr : Word) : (s.log cls sev unit code aux addr).nextOrder = s.nextOrder := rfl
@[simp] theorem State.log_outcomes (s : State) (cls sev : Byte) (unit code aux : Nat) (addr : Word) : (s.log cls sev unit code aux addr).outcomes = s.outcomes := rfl
@[simp] theorem State.log_dispatch (s : State) (cls sev : Byte) (unit code aux : Nat) (addr : Word) : (s.log cls sev unit code aux addr).dispatch = s.dispatch := rfl
@[simp] theorem State.log_mailboxes (s : State) (cls sev : Byte) (unit code aux : Nat) (addr : Word) : (s.log cls sev unit code aux addr).mailboxes = s.mailboxes := rfl
@[simp] theorem State.log_nextRing (s : State) (cls sev : Byte) (unit code aux : Nat) (addr : Word) : (s.log cls sev unit code aux addr).nextRing = s.nextRing := rfl
@[simp] theorem State.log_ports (s : State) (cls sev : Byte) (unit code aux : Nat) (addr : Word) : (s.log cls sev unit code aux addr).ports = s.ports := rfl
@[simp] theorem State.log_streamA (s : State) (cls sev : Byte) (unit code aux : Nat) (addr : Word) : (s.log cls sev unit code aux addr).streamA = s.streamA := rfl
@[simp] theorem State.log_streamB (s : State) (cls sev : Byte) (unit code aux : Nat) (addr : Word) : (s.log cls sev unit code aux addr).streamB = s.streamB := rfl
@[simp] theorem State.log_pins (s : State) (cls sev : Byte) (unit code aux : Nat) (addr : Word) : (s.log cls sev unit code aux addr).pins = s.pins := rfl
@[simp] theorem State.log_timer (s : State) (cls sev : Byte) (unit code aux : Nat) (addr : Word) : (s.log cls sev unit code aux addr).timer = s.timer := rfl
@[simp] theorem State.log_fresh (s : State) (cls sev : Byte) (unit code aux : Nat) (addr : Word) : (s.log cls sev unit code aux addr).fresh = s.fresh := rfl
@[simp] theorem State.log_pending (s : State) (cls sev : Byte) (unit code aux : Nat) (addr : Word) : (s.log cls sev unit code aux addr).pending = s.pending := rfl

/-! ## State.enterStage -/

@[simp] theorem State.enterStage_cores (s : State) (n : Nat) : (s.enterStage n).cores = s.cores := rfl
@[simp] theorem State.enterStage_sheds (s : State) (n : Nat) : (s.enterStage n).sheds = s.sheds := rfl
@[simp] theorem State.enterStage_mem (s : State) (n : Nat) : (s.enterStage n).mem = s.mem := rfl
@[simp] theorem State.enterStage_refChg (s : State) (n : Nat) : (s.enterStage n).refChg = s.refChg := rfl
@[simp] theorem State.enterStage_l1d (s : State) (n : Nat) : (s.enterStage n).l1d = s.l1d := rfl
@[simp] theorem State.enterStage_l1i (s : State) (n : Nat) : (s.enterStage n).l1i = s.l1i := rfl
@[simp] theorem State.enterStage_yardA (s : State) (n : Nat) : (s.enterStage n).yardA = s.yardA := rfl
@[simp] theorem State.enterStage_yardB (s : State) (n : Nat) : (s.enterStage n).yardB = s.yardB := rfl
@[simp] theorem State.enterStage_segCounter (s : State) (n : Nat) : (s.enterStage n).segCounter = s.segCounter := rfl
@[simp] theorem State.enterStage_segments (s : State) (n : Nat) : (s.enterStage n).segments = s.segments := rfl
@[simp] theorem State.enterStage_sessions (s : State) (n : Nat) : (s.enterStage n).sessions = s.sessions := rfl
@[simp] theorem State.enterStage_sqs (s : State) (n : Nat) : (s.enterStage n).sqs = s.sqs := rfl
@[simp] theorem State.enterStage_cqs (s : State) (n : Nat) : (s.enterStage n).cqs = s.cqs := rfl
@[simp] theorem State.enterStage_qerr (s : State) (n : Nat) : (s.enterStage n).qerr = s.qerr := rfl
@[simp] theorem State.enterStage_qen (s : State) (n : Nat) : (s.enterStage n).qen = s.qen := rfl
@[simp] theorem State.enterStage_d3hot (s : State) (n : Nat) : (s.enterStage n).d3hot = s.d3hot := rfl
@[simp] theorem State.enterStage_mbvec (s : State) (n : Nat) : (s.enterStage n).mbvec = s.mbvec := rfl
@[simp] theorem State.enterStage_msix (s : State) (n : Nat) : (s.enterStage n).msix = s.msix := rfl
@[simp] theorem State.enterStage_config (s : State) (n : Nat) : (s.enterStage n).config = s.config := rfl
@[simp] theorem State.enterStage_lastSq (s : State) (n : Nat) : (s.enterStage n).lastSq = s.lastSq := rfl
@[simp] theorem State.enterStage_requests (s : State) (n : Nat) : (s.enterStage n).requests = s.requests := rfl
@[simp] theorem State.enterStage_nextReq (s : State) (n : Nat) : (s.enterStage n).nextReq = s.nextReq := rfl
@[simp] theorem State.enterStage_nextOrder (s : State) (n : Nat) : (s.enterStage n).nextOrder = s.nextOrder := rfl
@[simp] theorem State.enterStage_outcomes (s : State) (n : Nat) : (s.enterStage n).outcomes = s.outcomes := rfl
@[simp] theorem State.enterStage_dispatch (s : State) (n : Nat) : (s.enterStage n).dispatch = s.dispatch := rfl
@[simp] theorem State.enterStage_mailboxes (s : State) (n : Nat) : (s.enterStage n).mailboxes = s.mailboxes := rfl
@[simp] theorem State.enterStage_nextRing (s : State) (n : Nat) : (s.enterStage n).nextRing = s.nextRing := rfl
@[simp] theorem State.enterStage_ports (s : State) (n : Nat) : (s.enterStage n).ports = s.ports := rfl
@[simp] theorem State.enterStage_streamA (s : State) (n : Nat) : (s.enterStage n).streamA = s.streamA := rfl
@[simp] theorem State.enterStage_streamB (s : State) (n : Nat) : (s.enterStage n).streamB = s.streamB := rfl
@[simp] theorem State.enterStage_pins (s : State) (n : Nat) : (s.enterStage n).pins = s.pins := rfl
@[simp] theorem State.enterStage_timer (s : State) (n : Nat) : (s.enterStage n).timer = s.timer := rfl
@[simp] theorem State.enterStage_fresh (s : State) (n : Nat) : (s.enterStage n).fresh = s.fresh := rfl
@[simp] theorem State.enterStage_pending (s : State) (n : Nat) : (s.enterStage n).pending = s.pending := rfl

/-! ## Core.setGReg -/

@[simp] theorem Core.setGReg_run (k : Core) (r : BitVec 4) (v : GReg) : (k.setGReg r v).run = k.run := by unfold Core.setGReg; split <;> rfl
@[simp] theorem Core.setGReg_shadows (k : Core) (r : BitVec 4) (v : GReg) : (k.setGReg r v).shadows = k.shadows := by unfold Core.setGReg; split <;> rfl
@[simp] theorem Core.setGReg_depth (k : Core) (r : BitVec 4) (v : GReg) : (k.setGReg r v).depth = k.depth := by unfold Core.setGReg; split <;> rfl
@[simp] theorem Core.setGReg_status (k : Core) (r : BitVec 4) (v : GReg) : (k.setGReg r v).status = k.status := by unfold Core.setGReg; split <;> rfl
@[simp] theorem Core.setGReg_flags (k : Core) (r : BitVec 4) (v : GReg) : (k.setGReg r v).flags = k.flags := by unfold Core.setGReg; split <;> rfl
@[simp] theorem Core.setGReg_fpctl (k : Core) (r : BitVec 4) (v : GReg) : (k.setGReg r v).fpctl = k.fpctl := by unfold Core.setGReg; split <;> rfl
@[simp] theorem Core.setGReg_resume (k : Core) (r : BitVec 4) (v : GReg) : (k.setGReg r v).resume = k.resume := by unfold Core.setGReg; split <;> rfl
@[simp] theorem Core.setGReg_mh (k : Core) (r : BitVec 4) (v : GReg) : (k.setGReg r v).mh = k.mh := by unfold Core.setGReg; split <;> rfl
@[simp] theorem Core.setGReg_ml (k : Core) (r : BitVec 4) (v : GReg) : (k.setGReg r v).ml = k.ml := by unfold Core.setGReg; split <;> rfl
@[simp] theorem Core.setGReg_product (k : Core) (r : BitVec 4) (v : GReg) : (k.setGReg r v).product = k.product := by unfold Core.setGReg; split <;> rfl
@[simp] theorem Core.setGReg_fpq (k : Core) (r : BitVec 4) (v : GReg) : (k.setGReg r v).fpq = k.fpq := by unfold Core.setGReg; split <;> rfl
@[simp] theorem Core.setGReg_zone (k : Core) (r : BitVec 4) (v : GReg) : (k.setGReg r v).zone = k.zone := by unfold Core.setGReg; split <;> rfl
@[simp] theorem Core.setGReg_currency (k : Core) (r : BitVec 4) (v : GReg) : (k.setGReg r v).currency = k.currency := by unfold Core.setGReg; split <;> rfl
@[simp] theorem Core.setGReg_cause (k : Core) (r : BitVec 4) (v : GReg) : (k.setGReg r v).cause = k.cause := by unfold Core.setGReg; split <;> rfl
@[simp] theorem Core.setGReg_faddr (k : Core) (r : BitVec 4) (v : GReg) : (k.setGReg r v).faddr = k.faddr := by unfold Core.setGReg; split <;> rfl
@[simp] theorem Core.setGReg_hpcc (k : Core) (r : BitVec 4) (v : GReg) : (k.setGReg r v).hpcc = k.hpcc := by unfold Core.setGReg; split <;> rfl
@[simp] theorem Core.setGReg_hdcc (k : Core) (r : BitVec 4) (v : GReg) : (k.setGReg r v).hdcc = k.hdcc := by unfold Core.setGReg; split <;> rfl
@[simp] theorem Core.setGReg_tcmp (k : Core) (r : BitVec 4) (v : GReg) : (k.setGReg r v).tcmp = k.tcmp := by unfold Core.setGReg; split <;> rfl
@[simp] theorem Core.setGReg_corecfg (k : Core) (r : BitVec 4) (v : GReg) : (k.setGReg r v).corecfg = k.corecfg := by unfold Core.setGReg; split <;> rfl
@[simp] theorem Core.setGReg_jopen (k : Core) (r : BitVec 4) (v : GReg) : (k.setGReg r v).jopen = k.jopen := by unfold Core.setGReg; split <;> rfl
@[simp] theorem Core.setGReg_segno (k : Core) (r : BitVec 4) (v : GReg) : (k.setGReg r v).segno = k.segno := by unfold Core.setGReg; split <;> rfl
@[simp] theorem Core.setGReg_sidx (k : Core) (r : BitVec 4) (v : GReg) : (k.setGReg r v).sidx = k.sidx := by unfold Core.setGReg; split <;> rfl
@[simp] theorem Core.setGReg_slot (k : Core) (r : BitVec 4) (v : GReg) : (k.setGReg r v).slot = k.slot := by unfold Core.setGReg; split <;> rfl
@[simp] theorem Core.setGReg_rid (k : Core) (r : BitVec 4) (v : GReg) : (k.setGReg r v).rid = k.rid := by unfold Core.setGReg; split <;> rfl
@[simp] theorem Core.setGReg_subOpc (k : Core) (r : BitVec 4) (v : GReg) : (k.setGReg r v).subOpc = k.subOpc := by unfold Core.setGReg; split <;> rfl
@[simp] theorem Core.setGReg_sealedIn (k : Core) (r : BitVec 4) (v : GReg) : (k.setGReg r v).sealedIn = k.sealedIn := by unfold Core.setGReg; split <;> rfl
@[simp] theorem Core.setGReg_delay (k : Core) (r : BitVec 4) (v : GReg) : (k.setGReg r v).delay = k.delay := by unfold Core.setGReg; split <;> rfl
@[simp] theorem Core.setGReg_grace (k : Core) (r : BitVec 4) (v : GReg) : (k.setGReg r v).grace = k.grace := by unfold Core.setGReg; split <;> rfl
@[simp] theorem Core.setGReg_stepSkip (k : Core) (r : BitVec 4) (v : GReg) : (k.setGReg r v).stepSkip = k.stepSkip := by unfold Core.setGReg; split <;> rfl
@[simp] theorem Core.setGReg_resv (k : Core) (r : BitVec 4) (v : GReg) : (k.setGReg r v).resv = k.resv := by unfold Core.setGReg; split <;> rfl
@[simp] theorem Core.setGReg_sbuf (k : Core) (r : BitVec 4) (v : GReg) : (k.setGReg r v).sbuf = k.sbuf := by unfold Core.setGReg; split <;> rfl
@[simp] theorem Core.setGReg_wait (k : Core) (r : BitVec 4) (v : GReg) : (k.setGReg r v).wait = k.wait := by unfold Core.setGReg; split <;> rfl
@[simp] theorem Core.setGReg_held (k : Core) (r : BitVec 4) (v : GReg) : (k.setGReg r v).held = k.held := by unfold Core.setGReg; split <;> rfl
@[simp] theorem Core.setGReg_ports (k : Core) (r : BitVec 4) (v : GReg) : (k.setGReg r v).ports = k.ports := by unfold Core.setGReg; split <;> rfl
@[simp] theorem Core.setGReg_portMicro (k : Core) (r : BitVec 4) (v : GReg) : (k.setGReg r v).portMicro = k.portMicro := by unfold Core.setGReg; split <;> rfl
@[simp] theorem Core.setGReg_owedFault (k : Core) (r : BitVec 4) (v : GReg) : (k.setGReg r v).owedFault = k.owedFault := by unfold Core.setGReg; split <;> rfl
@[simp] theorem Core.setGReg_ahead (k : Core) (r : BitVec 4) (v : GReg) : (k.setGReg r v).ahead = k.ahead := by unfold Core.setGReg; split <;> rfl
@[simp] theorem Core.setGReg_ien (k : Core) (r : BitVec 4) (v : GReg) : (k.setGReg r v).ien = k.ien := by unfold Core.setGReg; split <;> rfl
@[simp] theorem Core.setGReg_detSlot (k : Core) (r : BitVec 4) (v : GReg) : (k.setGReg r v).detSlot = k.detSlot := by unfold Core.setGReg; split <;> rfl
@[simp] theorem Core.setGReg_steward (k : Core) (r : BitVec 4) (v : GReg) : (k.setGReg r v).steward = k.steward := by unfold Core.setGReg; split <;> rfl
@[simp] theorem Core.setGReg_dbgHalt (k : Core) (r : BitVec 4) (v : GReg) : (k.setGReg r v).dbgHalt = k.dbgHalt := by unfold Core.setGReg; split <;> rfl
@[simp] theorem Core.setGReg_peers (k : Core) (r : BitVec 4) (v : GReg) : (k.setGReg r v).peers = k.peers := by unfold Core.setGReg; split <;> rfl
@[simp] theorem Core.setGReg_dbgctl (k : Core) (r : BitVec 4) (v : GReg) : (k.setGReg r v).dbgctl = k.dbgctl := by unfold Core.setGReg; split <;> rfl
@[simp] theorem Core.setGReg_iam (k : Core) (r : BitVec 4) (v : GReg) : (k.setGReg r v).iam = k.iam := by unfold Core.setGReg; split <;> rfl
@[simp] theorem Core.setGReg_dam (k : Core) (r : BitVec 4) (v : GReg) : (k.setGReg r v).dam = k.dam := by unfold Core.setGReg; split <;> rfl
@[simp] theorem Core.setGReg_damask (k : Core) (r : BitVec 4) (v : GReg) : (k.setGReg r v).damask = k.damask := by unfold Core.setGReg; split <;> rfl
@[simp] theorem Core.setGReg_corr (k : Core) (r : BitVec 4) (v : GReg) : (k.setGReg r v).corr = k.corr := by unfold Core.setGReg; split <;> rfl
@[simp] theorem Core.setGReg_uncorr (k : Core) (r : BitVec 4) (v : GReg) : (k.setGReg r v).uncorr = k.uncorr := by unfold Core.setGReg; split <;> rfl
@[simp] theorem Core.setGReg_spareMap (k : Core) (r : BitVec 4) (v : GReg) : (k.setGReg r v).spareMap = k.spareMap := by unfold Core.setGReg; split <;> rfl
@[simp] theorem Core.setGReg_deadSpares (k : Core) (r : BitVec 4) (v : GReg) : (k.setGReg r v).deadSpares = k.deadSpares := by unfold Core.setGReg; split <;> rfl
@[simp] theorem Core.setGReg_scrubNext (k : Core) (r : BitVec 4) (v : GReg) : (k.setGReg r v).scrubNext = k.scrubNext := by unfold Core.setGReg; split <;> rfl
@[simp] theorem Core.setGReg_unrepaired (k : Core) (r : BitVec 4) (v : GReg) : (k.setGReg r v).unrepaired = k.unrepaired := by unfold Core.setGReg; split <;> rfl
@[simp] theorem Core.setGReg_predictor (k : Core) (r : BitVec 4) (v : GReg) : (k.setGReg r v).predictor = k.predictor := by unfold Core.setGReg; split <;> rfl
@[simp] theorem Core.setGReg_cs (k : Core) (r : BitVec 4) (v : GReg) : (k.setGReg r v).cs = k.cs := by unfold Core.setGReg; split <;> rfl
@[simp] theorem Core.setGReg_engine (k : Core) (r : BitVec 4) (v : GReg) : (k.setGReg r v).engine = k.engine := by unfold Core.setGReg; split <;> rfl
@[simp] theorem Core.setGReg_csHist (k : Core) (r : BitVec 4) (v : GReg) : (k.setGReg r v).csHist = k.csHist := by unfold Core.setGReg; split <;> rfl
@[simp] theorem Core.setGReg_represented (k : Core) (r : BitVec 4) (v : GReg) : (k.setGReg r v).represented = k.represented := by unfold Core.setGReg; split <;> rfl
@[simp] theorem Core.setGReg_paddockDue (k : Core) (r : BitVec 4) (v : GReg) : (k.setGReg r v).paddockDue = k.paddockDue := by unfold Core.setGReg; split <;> rfl
@[simp] theorem Core.setGReg_retired (k : Core) (r : BitVec 4) (v : GReg) : (k.setGReg r v).retired = k.retired := by unfold Core.setGReg; split <;> rfl
@[simp] theorem Core.setGReg_savedEn (k : Core) (r : BitVec 4) (v : GReg) : (k.setGReg r v).savedEn = k.savedEn := by unfold Core.setGReg; split <;> rfl

/-! ## Core.setC -/

@[simp] theorem Core.setC_run (k : Core) (r : BitVec 4) (v : Cap) : (k.setC r v).run = k.run := by unfold Core.setC; split <;> rfl
@[simp] theorem Core.setC_shadows (k : Core) (r : BitVec 4) (v : Cap) : (k.setC r v).shadows = k.shadows := by unfold Core.setC; split <;> rfl
@[simp] theorem Core.setC_depth (k : Core) (r : BitVec 4) (v : Cap) : (k.setC r v).depth = k.depth := by unfold Core.setC; split <;> rfl
@[simp] theorem Core.setC_status (k : Core) (r : BitVec 4) (v : Cap) : (k.setC r v).status = k.status := by unfold Core.setC; split <;> rfl
@[simp] theorem Core.setC_flags (k : Core) (r : BitVec 4) (v : Cap) : (k.setC r v).flags = k.flags := by unfold Core.setC; split <;> rfl
@[simp] theorem Core.setC_fpctl (k : Core) (r : BitVec 4) (v : Cap) : (k.setC r v).fpctl = k.fpctl := by unfold Core.setC; split <;> rfl
@[simp] theorem Core.setC_resume (k : Core) (r : BitVec 4) (v : Cap) : (k.setC r v).resume = k.resume := by unfold Core.setC; split <;> rfl
@[simp] theorem Core.setC_mh (k : Core) (r : BitVec 4) (v : Cap) : (k.setC r v).mh = k.mh := by unfold Core.setC; split <;> rfl
@[simp] theorem Core.setC_ml (k : Core) (r : BitVec 4) (v : Cap) : (k.setC r v).ml = k.ml := by unfold Core.setC; split <;> rfl
@[simp] theorem Core.setC_product (k : Core) (r : BitVec 4) (v : Cap) : (k.setC r v).product = k.product := by unfold Core.setC; split <;> rfl
@[simp] theorem Core.setC_fpq (k : Core) (r : BitVec 4) (v : Cap) : (k.setC r v).fpq = k.fpq := by unfold Core.setC; split <;> rfl
@[simp] theorem Core.setC_zone (k : Core) (r : BitVec 4) (v : Cap) : (k.setC r v).zone = k.zone := by unfold Core.setC; split <;> rfl
@[simp] theorem Core.setC_currency (k : Core) (r : BitVec 4) (v : Cap) : (k.setC r v).currency = k.currency := by unfold Core.setC; split <;> rfl
@[simp] theorem Core.setC_cause (k : Core) (r : BitVec 4) (v : Cap) : (k.setC r v).cause = k.cause := by unfold Core.setC; split <;> rfl
@[simp] theorem Core.setC_faddr (k : Core) (r : BitVec 4) (v : Cap) : (k.setC r v).faddr = k.faddr := by unfold Core.setC; split <;> rfl
@[simp] theorem Core.setC_hpcc (k : Core) (r : BitVec 4) (v : Cap) : (k.setC r v).hpcc = k.hpcc := by unfold Core.setC; split <;> rfl
@[simp] theorem Core.setC_hdcc (k : Core) (r : BitVec 4) (v : Cap) : (k.setC r v).hdcc = k.hdcc := by unfold Core.setC; split <;> rfl
@[simp] theorem Core.setC_tcmp (k : Core) (r : BitVec 4) (v : Cap) : (k.setC r v).tcmp = k.tcmp := by unfold Core.setC; split <;> rfl
@[simp] theorem Core.setC_corecfg (k : Core) (r : BitVec 4) (v : Cap) : (k.setC r v).corecfg = k.corecfg := by unfold Core.setC; split <;> rfl
@[simp] theorem Core.setC_jopen (k : Core) (r : BitVec 4) (v : Cap) : (k.setC r v).jopen = k.jopen := by unfold Core.setC; split <;> rfl
@[simp] theorem Core.setC_segno (k : Core) (r : BitVec 4) (v : Cap) : (k.setC r v).segno = k.segno := by unfold Core.setC; split <;> rfl
@[simp] theorem Core.setC_sidx (k : Core) (r : BitVec 4) (v : Cap) : (k.setC r v).sidx = k.sidx := by unfold Core.setC; split <;> rfl
@[simp] theorem Core.setC_slot (k : Core) (r : BitVec 4) (v : Cap) : (k.setC r v).slot = k.slot := by unfold Core.setC; split <;> rfl
@[simp] theorem Core.setC_rid (k : Core) (r : BitVec 4) (v : Cap) : (k.setC r v).rid = k.rid := by unfold Core.setC; split <;> rfl
@[simp] theorem Core.setC_subOpc (k : Core) (r : BitVec 4) (v : Cap) : (k.setC r v).subOpc = k.subOpc := by unfold Core.setC; split <;> rfl
@[simp] theorem Core.setC_sealedIn (k : Core) (r : BitVec 4) (v : Cap) : (k.setC r v).sealedIn = k.sealedIn := by unfold Core.setC; split <;> rfl
@[simp] theorem Core.setC_delay (k : Core) (r : BitVec 4) (v : Cap) : (k.setC r v).delay = k.delay := by unfold Core.setC; split <;> rfl
@[simp] theorem Core.setC_grace (k : Core) (r : BitVec 4) (v : Cap) : (k.setC r v).grace = k.grace := by unfold Core.setC; split <;> rfl
@[simp] theorem Core.setC_stepSkip (k : Core) (r : BitVec 4) (v : Cap) : (k.setC r v).stepSkip = k.stepSkip := by unfold Core.setC; split <;> rfl
@[simp] theorem Core.setC_resv (k : Core) (r : BitVec 4) (v : Cap) : (k.setC r v).resv = k.resv := by unfold Core.setC; split <;> rfl
@[simp] theorem Core.setC_sbuf (k : Core) (r : BitVec 4) (v : Cap) : (k.setC r v).sbuf = k.sbuf := by unfold Core.setC; split <;> rfl
@[simp] theorem Core.setC_wait (k : Core) (r : BitVec 4) (v : Cap) : (k.setC r v).wait = k.wait := by unfold Core.setC; split <;> rfl
@[simp] theorem Core.setC_held (k : Core) (r : BitVec 4) (v : Cap) : (k.setC r v).held = k.held := by unfold Core.setC; split <;> rfl
@[simp] theorem Core.setC_ports (k : Core) (r : BitVec 4) (v : Cap) : (k.setC r v).ports = k.ports := by unfold Core.setC; split <;> rfl
@[simp] theorem Core.setC_portMicro (k : Core) (r : BitVec 4) (v : Cap) : (k.setC r v).portMicro = k.portMicro := by unfold Core.setC; split <;> rfl
@[simp] theorem Core.setC_owedFault (k : Core) (r : BitVec 4) (v : Cap) : (k.setC r v).owedFault = k.owedFault := by unfold Core.setC; split <;> rfl
@[simp] theorem Core.setC_ahead (k : Core) (r : BitVec 4) (v : Cap) : (k.setC r v).ahead = k.ahead := by unfold Core.setC; split <;> rfl
@[simp] theorem Core.setC_ien (k : Core) (r : BitVec 4) (v : Cap) : (k.setC r v).ien = k.ien := by unfold Core.setC; split <;> rfl
@[simp] theorem Core.setC_detSlot (k : Core) (r : BitVec 4) (v : Cap) : (k.setC r v).detSlot = k.detSlot := by unfold Core.setC; split <;> rfl
@[simp] theorem Core.setC_steward (k : Core) (r : BitVec 4) (v : Cap) : (k.setC r v).steward = k.steward := by unfold Core.setC; split <;> rfl
@[simp] theorem Core.setC_dbgHalt (k : Core) (r : BitVec 4) (v : Cap) : (k.setC r v).dbgHalt = k.dbgHalt := by unfold Core.setC; split <;> rfl
@[simp] theorem Core.setC_peers (k : Core) (r : BitVec 4) (v : Cap) : (k.setC r v).peers = k.peers := by unfold Core.setC; split <;> rfl
@[simp] theorem Core.setC_dbgctl (k : Core) (r : BitVec 4) (v : Cap) : (k.setC r v).dbgctl = k.dbgctl := by unfold Core.setC; split <;> rfl
@[simp] theorem Core.setC_iam (k : Core) (r : BitVec 4) (v : Cap) : (k.setC r v).iam = k.iam := by unfold Core.setC; split <;> rfl
@[simp] theorem Core.setC_dam (k : Core) (r : BitVec 4) (v : Cap) : (k.setC r v).dam = k.dam := by unfold Core.setC; split <;> rfl
@[simp] theorem Core.setC_damask (k : Core) (r : BitVec 4) (v : Cap) : (k.setC r v).damask = k.damask := by unfold Core.setC; split <;> rfl
@[simp] theorem Core.setC_corr (k : Core) (r : BitVec 4) (v : Cap) : (k.setC r v).corr = k.corr := by unfold Core.setC; split <;> rfl
@[simp] theorem Core.setC_uncorr (k : Core) (r : BitVec 4) (v : Cap) : (k.setC r v).uncorr = k.uncorr := by unfold Core.setC; split <;> rfl
@[simp] theorem Core.setC_spareMap (k : Core) (r : BitVec 4) (v : Cap) : (k.setC r v).spareMap = k.spareMap := by unfold Core.setC; split <;> rfl
@[simp] theorem Core.setC_deadSpares (k : Core) (r : BitVec 4) (v : Cap) : (k.setC r v).deadSpares = k.deadSpares := by unfold Core.setC; split <;> rfl
@[simp] theorem Core.setC_scrubNext (k : Core) (r : BitVec 4) (v : Cap) : (k.setC r v).scrubNext = k.scrubNext := by unfold Core.setC; split <;> rfl
@[simp] theorem Core.setC_unrepaired (k : Core) (r : BitVec 4) (v : Cap) : (k.setC r v).unrepaired = k.unrepaired := by unfold Core.setC; split <;> rfl
@[simp] theorem Core.setC_predictor (k : Core) (r : BitVec 4) (v : Cap) : (k.setC r v).predictor = k.predictor := by unfold Core.setC; split <;> rfl
@[simp] theorem Core.setC_cs (k : Core) (r : BitVec 4) (v : Cap) : (k.setC r v).cs = k.cs := by unfold Core.setC; split <;> rfl
@[simp] theorem Core.setC_engine (k : Core) (r : BitVec 4) (v : Cap) : (k.setC r v).engine = k.engine := by unfold Core.setC; split <;> rfl
@[simp] theorem Core.setC_csHist (k : Core) (r : BitVec 4) (v : Cap) : (k.setC r v).csHist = k.csHist := by unfold Core.setC; split <;> rfl
@[simp] theorem Core.setC_represented (k : Core) (r : BitVec 4) (v : Cap) : (k.setC r v).represented = k.represented := by unfold Core.setC; split <;> rfl
@[simp] theorem Core.setC_paddockDue (k : Core) (r : BitVec 4) (v : Cap) : (k.setC r v).paddockDue = k.paddockDue := by unfold Core.setC; split <;> rfl
@[simp] theorem Core.setC_retired (k : Core) (r : BitVec 4) (v : Cap) : (k.setC r v).retired = k.retired := by unfold Core.setC; split <;> rfl
@[simp] theorem Core.setC_savedEn (k : Core) (r : BitVec 4) (v : Cap) : (k.setC r v).savedEn = k.savedEn := by unfold Core.setC; split <;> rfl

/-! ## Core.setP -/

@[simp] theorem Core.setP_run (k : Core) (p : BitVec 3) (v : Bool) : (k.setP p v).run = k.run := by unfold Core.setP; split <;> rfl
@[simp] theorem Core.setP_shadows (k : Core) (p : BitVec 3) (v : Bool) : (k.setP p v).shadows = k.shadows := by unfold Core.setP; split <;> rfl
@[simp] theorem Core.setP_depth (k : Core) (p : BitVec 3) (v : Bool) : (k.setP p v).depth = k.depth := by unfold Core.setP; split <;> rfl
@[simp] theorem Core.setP_status (k : Core) (p : BitVec 3) (v : Bool) : (k.setP p v).status = k.status := by unfold Core.setP; split <;> rfl
@[simp] theorem Core.setP_flags (k : Core) (p : BitVec 3) (v : Bool) : (k.setP p v).flags = k.flags := by unfold Core.setP; split <;> rfl
@[simp] theorem Core.setP_fpctl (k : Core) (p : BitVec 3) (v : Bool) : (k.setP p v).fpctl = k.fpctl := by unfold Core.setP; split <;> rfl
@[simp] theorem Core.setP_resume (k : Core) (p : BitVec 3) (v : Bool) : (k.setP p v).resume = k.resume := by unfold Core.setP; split <;> rfl
@[simp] theorem Core.setP_mh (k : Core) (p : BitVec 3) (v : Bool) : (k.setP p v).mh = k.mh := by unfold Core.setP; split <;> rfl
@[simp] theorem Core.setP_ml (k : Core) (p : BitVec 3) (v : Bool) : (k.setP p v).ml = k.ml := by unfold Core.setP; split <;> rfl
@[simp] theorem Core.setP_product (k : Core) (p : BitVec 3) (v : Bool) : (k.setP p v).product = k.product := by unfold Core.setP; split <;> rfl
@[simp] theorem Core.setP_fpq (k : Core) (p : BitVec 3) (v : Bool) : (k.setP p v).fpq = k.fpq := by unfold Core.setP; split <;> rfl
@[simp] theorem Core.setP_zone (k : Core) (p : BitVec 3) (v : Bool) : (k.setP p v).zone = k.zone := by unfold Core.setP; split <;> rfl
@[simp] theorem Core.setP_currency (k : Core) (p : BitVec 3) (v : Bool) : (k.setP p v).currency = k.currency := by unfold Core.setP; split <;> rfl
@[simp] theorem Core.setP_cause (k : Core) (p : BitVec 3) (v : Bool) : (k.setP p v).cause = k.cause := by unfold Core.setP; split <;> rfl
@[simp] theorem Core.setP_faddr (k : Core) (p : BitVec 3) (v : Bool) : (k.setP p v).faddr = k.faddr := by unfold Core.setP; split <;> rfl
@[simp] theorem Core.setP_hpcc (k : Core) (p : BitVec 3) (v : Bool) : (k.setP p v).hpcc = k.hpcc := by unfold Core.setP; split <;> rfl
@[simp] theorem Core.setP_hdcc (k : Core) (p : BitVec 3) (v : Bool) : (k.setP p v).hdcc = k.hdcc := by unfold Core.setP; split <;> rfl
@[simp] theorem Core.setP_tcmp (k : Core) (p : BitVec 3) (v : Bool) : (k.setP p v).tcmp = k.tcmp := by unfold Core.setP; split <;> rfl
@[simp] theorem Core.setP_corecfg (k : Core) (p : BitVec 3) (v : Bool) : (k.setP p v).corecfg = k.corecfg := by unfold Core.setP; split <;> rfl
@[simp] theorem Core.setP_jopen (k : Core) (p : BitVec 3) (v : Bool) : (k.setP p v).jopen = k.jopen := by unfold Core.setP; split <;> rfl
@[simp] theorem Core.setP_segno (k : Core) (p : BitVec 3) (v : Bool) : (k.setP p v).segno = k.segno := by unfold Core.setP; split <;> rfl
@[simp] theorem Core.setP_sidx (k : Core) (p : BitVec 3) (v : Bool) : (k.setP p v).sidx = k.sidx := by unfold Core.setP; split <;> rfl
@[simp] theorem Core.setP_slot (k : Core) (p : BitVec 3) (v : Bool) : (k.setP p v).slot = k.slot := by unfold Core.setP; split <;> rfl
@[simp] theorem Core.setP_rid (k : Core) (p : BitVec 3) (v : Bool) : (k.setP p v).rid = k.rid := by unfold Core.setP; split <;> rfl
@[simp] theorem Core.setP_subOpc (k : Core) (p : BitVec 3) (v : Bool) : (k.setP p v).subOpc = k.subOpc := by unfold Core.setP; split <;> rfl
@[simp] theorem Core.setP_sealedIn (k : Core) (p : BitVec 3) (v : Bool) : (k.setP p v).sealedIn = k.sealedIn := by unfold Core.setP; split <;> rfl
@[simp] theorem Core.setP_delay (k : Core) (p : BitVec 3) (v : Bool) : (k.setP p v).delay = k.delay := by unfold Core.setP; split <;> rfl
@[simp] theorem Core.setP_grace (k : Core) (p : BitVec 3) (v : Bool) : (k.setP p v).grace = k.grace := by unfold Core.setP; split <;> rfl
@[simp] theorem Core.setP_stepSkip (k : Core) (p : BitVec 3) (v : Bool) : (k.setP p v).stepSkip = k.stepSkip := by unfold Core.setP; split <;> rfl
@[simp] theorem Core.setP_resv (k : Core) (p : BitVec 3) (v : Bool) : (k.setP p v).resv = k.resv := by unfold Core.setP; split <;> rfl
@[simp] theorem Core.setP_sbuf (k : Core) (p : BitVec 3) (v : Bool) : (k.setP p v).sbuf = k.sbuf := by unfold Core.setP; split <;> rfl
@[simp] theorem Core.setP_wait (k : Core) (p : BitVec 3) (v : Bool) : (k.setP p v).wait = k.wait := by unfold Core.setP; split <;> rfl
@[simp] theorem Core.setP_held (k : Core) (p : BitVec 3) (v : Bool) : (k.setP p v).held = k.held := by unfold Core.setP; split <;> rfl
@[simp] theorem Core.setP_ports (k : Core) (p : BitVec 3) (v : Bool) : (k.setP p v).ports = k.ports := by unfold Core.setP; split <;> rfl
@[simp] theorem Core.setP_portMicro (k : Core) (p : BitVec 3) (v : Bool) : (k.setP p v).portMicro = k.portMicro := by unfold Core.setP; split <;> rfl
@[simp] theorem Core.setP_owedFault (k : Core) (p : BitVec 3) (v : Bool) : (k.setP p v).owedFault = k.owedFault := by unfold Core.setP; split <;> rfl
@[simp] theorem Core.setP_ahead (k : Core) (p : BitVec 3) (v : Bool) : (k.setP p v).ahead = k.ahead := by unfold Core.setP; split <;> rfl
@[simp] theorem Core.setP_ien (k : Core) (p : BitVec 3) (v : Bool) : (k.setP p v).ien = k.ien := by unfold Core.setP; split <;> rfl
@[simp] theorem Core.setP_detSlot (k : Core) (p : BitVec 3) (v : Bool) : (k.setP p v).detSlot = k.detSlot := by unfold Core.setP; split <;> rfl
@[simp] theorem Core.setP_steward (k : Core) (p : BitVec 3) (v : Bool) : (k.setP p v).steward = k.steward := by unfold Core.setP; split <;> rfl
@[simp] theorem Core.setP_dbgHalt (k : Core) (p : BitVec 3) (v : Bool) : (k.setP p v).dbgHalt = k.dbgHalt := by unfold Core.setP; split <;> rfl
@[simp] theorem Core.setP_peers (k : Core) (p : BitVec 3) (v : Bool) : (k.setP p v).peers = k.peers := by unfold Core.setP; split <;> rfl
@[simp] theorem Core.setP_dbgctl (k : Core) (p : BitVec 3) (v : Bool) : (k.setP p v).dbgctl = k.dbgctl := by unfold Core.setP; split <;> rfl
@[simp] theorem Core.setP_iam (k : Core) (p : BitVec 3) (v : Bool) : (k.setP p v).iam = k.iam := by unfold Core.setP; split <;> rfl
@[simp] theorem Core.setP_dam (k : Core) (p : BitVec 3) (v : Bool) : (k.setP p v).dam = k.dam := by unfold Core.setP; split <;> rfl
@[simp] theorem Core.setP_damask (k : Core) (p : BitVec 3) (v : Bool) : (k.setP p v).damask = k.damask := by unfold Core.setP; split <;> rfl
@[simp] theorem Core.setP_corr (k : Core) (p : BitVec 3) (v : Bool) : (k.setP p v).corr = k.corr := by unfold Core.setP; split <;> rfl
@[simp] theorem Core.setP_uncorr (k : Core) (p : BitVec 3) (v : Bool) : (k.setP p v).uncorr = k.uncorr := by unfold Core.setP; split <;> rfl
@[simp] theorem Core.setP_spareMap (k : Core) (p : BitVec 3) (v : Bool) : (k.setP p v).spareMap = k.spareMap := by unfold Core.setP; split <;> rfl
@[simp] theorem Core.setP_deadSpares (k : Core) (p : BitVec 3) (v : Bool) : (k.setP p v).deadSpares = k.deadSpares := by unfold Core.setP; split <;> rfl
@[simp] theorem Core.setP_scrubNext (k : Core) (p : BitVec 3) (v : Bool) : (k.setP p v).scrubNext = k.scrubNext := by unfold Core.setP; split <;> rfl
@[simp] theorem Core.setP_unrepaired (k : Core) (p : BitVec 3) (v : Bool) : (k.setP p v).unrepaired = k.unrepaired := by unfold Core.setP; split <;> rfl
@[simp] theorem Core.setP_predictor (k : Core) (p : BitVec 3) (v : Bool) : (k.setP p v).predictor = k.predictor := by unfold Core.setP; split <;> rfl
@[simp] theorem Core.setP_cs (k : Core) (p : BitVec 3) (v : Bool) : (k.setP p v).cs = k.cs := by unfold Core.setP; split <;> rfl
@[simp] theorem Core.setP_engine (k : Core) (p : BitVec 3) (v : Bool) : (k.setP p v).engine = k.engine := by unfold Core.setP; split <;> rfl
@[simp] theorem Core.setP_csHist (k : Core) (p : BitVec 3) (v : Bool) : (k.setP p v).csHist = k.csHist := by unfold Core.setP; split <;> rfl
@[simp] theorem Core.setP_represented (k : Core) (p : BitVec 3) (v : Bool) : (k.setP p v).represented = k.represented := by unfold Core.setP; split <;> rfl
@[simp] theorem Core.setP_paddockDue (k : Core) (p : BitVec 3) (v : Bool) : (k.setP p v).paddockDue = k.paddockDue := by unfold Core.setP; split <;> rfl
@[simp] theorem Core.setP_retired (k : Core) (p : BitVec 3) (v : Bool) : (k.setP p v).retired = k.retired := by unfold Core.setP; split <;> rfl
@[simp] theorem Core.setP_savedEn (k : Core) (p : BitVec 3) (v : Bool) : (k.setP p v).savedEn = k.savedEn := by unfold Core.setP; split <;> rfl

/-! ## Core.setPcc -/

@[simp] theorem Core.setPcc_run (k : Core) (v : Cap) : (k.setPcc v).run = k.run := rfl
@[simp] theorem Core.setPcc_shadows (k : Core) (v : Cap) : (k.setPcc v).shadows = k.shadows := rfl
@[simp] theorem Core.setPcc_depth (k : Core) (v : Cap) : (k.setPcc v).depth = k.depth := rfl
@[simp] theorem Core.setPcc_status (k : Core) (v : Cap) : (k.setPcc v).status = k.status := rfl
@[simp] theorem Core.setPcc_flags (k : Core) (v : Cap) : (k.setPcc v).flags = k.flags := rfl
@[simp] theorem Core.setPcc_fpctl (k : Core) (v : Cap) : (k.setPcc v).fpctl = k.fpctl := rfl
@[simp] theorem Core.setPcc_resume (k : Core) (v : Cap) : (k.setPcc v).resume = k.resume := rfl
@[simp] theorem Core.setPcc_mh (k : Core) (v : Cap) : (k.setPcc v).mh = k.mh := rfl
@[simp] theorem Core.setPcc_ml (k : Core) (v : Cap) : (k.setPcc v).ml = k.ml := rfl
@[simp] theorem Core.setPcc_product (k : Core) (v : Cap) : (k.setPcc v).product = k.product := rfl
@[simp] theorem Core.setPcc_fpq (k : Core) (v : Cap) : (k.setPcc v).fpq = k.fpq := rfl
@[simp] theorem Core.setPcc_zone (k : Core) (v : Cap) : (k.setPcc v).zone = k.zone := rfl
@[simp] theorem Core.setPcc_currency (k : Core) (v : Cap) : (k.setPcc v).currency = k.currency := rfl
@[simp] theorem Core.setPcc_cause (k : Core) (v : Cap) : (k.setPcc v).cause = k.cause := rfl
@[simp] theorem Core.setPcc_faddr (k : Core) (v : Cap) : (k.setPcc v).faddr = k.faddr := rfl
@[simp] theorem Core.setPcc_hpcc (k : Core) (v : Cap) : (k.setPcc v).hpcc = k.hpcc := rfl
@[simp] theorem Core.setPcc_hdcc (k : Core) (v : Cap) : (k.setPcc v).hdcc = k.hdcc := rfl
@[simp] theorem Core.setPcc_tcmp (k : Core) (v : Cap) : (k.setPcc v).tcmp = k.tcmp := rfl
@[simp] theorem Core.setPcc_corecfg (k : Core) (v : Cap) : (k.setPcc v).corecfg = k.corecfg := rfl
@[simp] theorem Core.setPcc_jopen (k : Core) (v : Cap) : (k.setPcc v).jopen = k.jopen := rfl
@[simp] theorem Core.setPcc_segno (k : Core) (v : Cap) : (k.setPcc v).segno = k.segno := rfl
@[simp] theorem Core.setPcc_sidx (k : Core) (v : Cap) : (k.setPcc v).sidx = k.sidx := rfl
@[simp] theorem Core.setPcc_slot (k : Core) (v : Cap) : (k.setPcc v).slot = k.slot := rfl
@[simp] theorem Core.setPcc_rid (k : Core) (v : Cap) : (k.setPcc v).rid = k.rid := rfl
@[simp] theorem Core.setPcc_subOpc (k : Core) (v : Cap) : (k.setPcc v).subOpc = k.subOpc := rfl
@[simp] theorem Core.setPcc_sealedIn (k : Core) (v : Cap) : (k.setPcc v).sealedIn = k.sealedIn := rfl
@[simp] theorem Core.setPcc_delay (k : Core) (v : Cap) : (k.setPcc v).delay = k.delay := rfl
@[simp] theorem Core.setPcc_grace (k : Core) (v : Cap) : (k.setPcc v).grace = k.grace := rfl
@[simp] theorem Core.setPcc_stepSkip (k : Core) (v : Cap) : (k.setPcc v).stepSkip = k.stepSkip := rfl
@[simp] theorem Core.setPcc_resv (k : Core) (v : Cap) : (k.setPcc v).resv = k.resv := rfl
@[simp] theorem Core.setPcc_sbuf (k : Core) (v : Cap) : (k.setPcc v).sbuf = k.sbuf := rfl
@[simp] theorem Core.setPcc_wait (k : Core) (v : Cap) : (k.setPcc v).wait = k.wait := rfl
@[simp] theorem Core.setPcc_held (k : Core) (v : Cap) : (k.setPcc v).held = k.held := rfl
@[simp] theorem Core.setPcc_ports (k : Core) (v : Cap) : (k.setPcc v).ports = k.ports := rfl
@[simp] theorem Core.setPcc_portMicro (k : Core) (v : Cap) : (k.setPcc v).portMicro = k.portMicro := rfl
@[simp] theorem Core.setPcc_owedFault (k : Core) (v : Cap) : (k.setPcc v).owedFault = k.owedFault := rfl
@[simp] theorem Core.setPcc_ahead (k : Core) (v : Cap) : (k.setPcc v).ahead = k.ahead := rfl
@[simp] theorem Core.setPcc_ien (k : Core) (v : Cap) : (k.setPcc v).ien = k.ien := rfl
@[simp] theorem Core.setPcc_detSlot (k : Core) (v : Cap) : (k.setPcc v).detSlot = k.detSlot := rfl
@[simp] theorem Core.setPcc_steward (k : Core) (v : Cap) : (k.setPcc v).steward = k.steward := rfl
@[simp] theorem Core.setPcc_dbgHalt (k : Core) (v : Cap) : (k.setPcc v).dbgHalt = k.dbgHalt := rfl
@[simp] theorem Core.setPcc_peers (k : Core) (v : Cap) : (k.setPcc v).peers = k.peers := rfl
@[simp] theorem Core.setPcc_dbgctl (k : Core) (v : Cap) : (k.setPcc v).dbgctl = k.dbgctl := rfl
@[simp] theorem Core.setPcc_iam (k : Core) (v : Cap) : (k.setPcc v).iam = k.iam := rfl
@[simp] theorem Core.setPcc_dam (k : Core) (v : Cap) : (k.setPcc v).dam = k.dam := rfl
@[simp] theorem Core.setPcc_damask (k : Core) (v : Cap) : (k.setPcc v).damask = k.damask := rfl
@[simp] theorem Core.setPcc_corr (k : Core) (v : Cap) : (k.setPcc v).corr = k.corr := rfl
@[simp] theorem Core.setPcc_uncorr (k : Core) (v : Cap) : (k.setPcc v).uncorr = k.uncorr := rfl
@[simp] theorem Core.setPcc_spareMap (k : Core) (v : Cap) : (k.setPcc v).spareMap = k.spareMap := rfl
@[simp] theorem Core.setPcc_deadSpares (k : Core) (v : Cap) : (k.setPcc v).deadSpares = k.deadSpares := rfl
@[simp] theorem Core.setPcc_scrubNext (k : Core) (v : Cap) : (k.setPcc v).scrubNext = k.scrubNext := rfl
@[simp] theorem Core.setPcc_unrepaired (k : Core) (v : Cap) : (k.setPcc v).unrepaired = k.unrepaired := rfl
@[simp] theorem Core.setPcc_predictor (k : Core) (v : Cap) : (k.setPcc v).predictor = k.predictor := rfl
@[simp] theorem Core.setPcc_cs (k : Core) (v : Cap) : (k.setPcc v).cs = k.cs := rfl
@[simp] theorem Core.setPcc_engine (k : Core) (v : Cap) : (k.setPcc v).engine = k.engine := rfl
@[simp] theorem Core.setPcc_csHist (k : Core) (v : Cap) : (k.setPcc v).csHist = k.csHist := rfl
@[simp] theorem Core.setPcc_represented (k : Core) (v : Cap) : (k.setPcc v).represented = k.represented := rfl
@[simp] theorem Core.setPcc_paddockDue (k : Core) (v : Cap) : (k.setPcc v).paddockDue = k.paddockDue := rfl
@[simp] theorem Core.setPcc_retired (k : Core) (v : Cap) : (k.setPcc v).retired = k.retired := rfl
@[simp] theorem Core.setPcc_savedEn (k : Core) (v : Cap) : (k.setPcc v).savedEn = k.savedEn := rfl

end Sys2Proof.Machine
end

