-- ==== Sys2Proof/Laws/Commands.lean ====
section
/-! SUPPORT. What a steward command does, said once: it changes nothing, or it is its body on the mailbox marked as begun. -/

namespace Sys2Proof.Machine

open Sys2Proof

/-- A command of a mailbox either stands outside the steward's reach, and nothing changes, or runs its body with its request. -/
theorem State.command_cases (s : State) (m : MboxId) (cmd : Nat) (kind : List Byte → Bool) (body : Bool → List Byte → State → State) :
    s.command m cmd kind body = s ∨
    ((s.mb m).busy = true ∧ (s.mb m).cmd = cmd ∧ kind (s.mb m).req = true ∧ s.steward.fatal = false ∧
      s.command m cmd kind body = body (!(s.mb m).started) (s.mb m).req (s.modMb m fun b => { b with started := true })) := by
  unfold State.command
  dsimp only
  split
  · next h =>
    simp only [Bool.and_eq_true, beq_iff_eq, Bool.not_eq_true'] at h
    exact .inr ⟨h.1.1.1.1.1.1, h.1.1.1.1.1.2, h.1.1.1.1.2, h.1.1.1.2, rfl⟩
  · exact .inl rfl

/-- The mailbox that is changed. -/
@[simp] theorem State.mb_modMb (s : State) (m : MboxId) (f : Mailbox → Mailbox) : (s.modMb m f).mb m = f (s.mb m) := by
  simp [State.mb, State.modMb]

/-- Every other mailbox stays. -/
theorem State.mb_modMb_ne (s : State) (m n : MboxId) (f : Mailbox → Mailbox) (h : n ≠ m) : (s.modMb m f).mb n = s.mb n := by
  simp only [State.mb, State.modMb, Fin.getElem_fin]
  rw [Vector.getElem_set]
  split
  · exact absurd (Fin.ext (by assumption)).symm h
  · rfl

end Sys2Proof.Machine
end

