-- ==== Sys2Proof/Laws/Decode.lean ====
section
/-! SUPPORT. Decoding and encoding: an opcode that no table assigns, and an L64 form read back from its opcode and fields. -/

namespace Sys2Proof

/-- An opcode that no table assigns spells an unassigned opcode (03 R81). -/
theorem decodeOpcode_unassigned (c : CoreId) (opc : BitVec 10) (w : L64) (h : assigned opc.toNat = false) :
    decodeOpcode c opc w = .unassignedOpcode c (.l64 opc w) := by
  unfold decodeOpcode
  split <;> first | rfl | (rename_i h2; rw [h2] at h; exact absurd h (by decide))

/-- The opcode and fields that an L64 form is encoded with are read back as that form. -/
theorem decodeOpcode_longForm (i : Instr) (hw : i.wellFormed) (c : CoreId) (opc : BitVec 10) (w : L64)
    (h : longForm i = some (c, opc, w)) : decodeOpcode c opc w = i := by
  cases i
  case unassignedOpcode c' u =>
    cases u with
    | l64 o w' =>
      have h : some (c', o, w') = some (c, opc, w) := h
      cases h
      simp only [Instr.wellFormed, Unassigned.ok, Bool.not_eq_true'] at hw
      exact decodeOpcode_unassigned _ _ _ hw
    | s16 => have h : none = some (c, opc, w) := h; cases h
  case waitd f => cases f <;> first | (change none = _ at h; cases h) | (change some (_, _, _) = _ at h; cases h; rfl)
  case post f => cases f <;> first | (change none = _ at h; cases h) | (change some (_, _, _) = _ at h; cases h; rfl)
  all_goals first
    | (change none = _ at h; cases h)
    | (change some (_, _, _) = _ at h; cases h; rfl)
    | (rename_i f; cases f <;> first | (change none = _ at h; cases h) | (change some (_, _, _) = _ at h; cases h; rfl))

end Sys2Proof
end

