-- ==== Sys2Proof/Laws/Issue.lean ====
section
/-! SUPPORT. What issuing an instruction does, said once: an instruction whose checks pass is its body, completed. -/

namespace Sys2Proof.Machine

open Sys2Proof

@[simp] theorem State.core_setCore (s : State) (c : CoreId) (k : Core) : (s.setCore c k).core c = k := by
  simp [State.core, State.setCore]

theorem State.core_setCore_ne (s : State) (c d : CoreId) (k : Core) (h : d ≠ c) : (s.setCore c k).core d = s.core d := by
  simp only [State.core, State.setCore, Fin.getElem_fin]
  rw [Vector.getElem_set]; split
  · exact absurd (Fin.ext (by assumption)).symm h
  · rfl

@[simp] theorem State.core_modCore (s : State) (c : CoreId) (f : Core → Core) : (s.modCore c f).core c = f (s.core c) :=
  s.core_setCore c _

theorem State.core_modCore_ne (s : State) (c d : CoreId) (f : Core → Core) (h : d ≠ c) : (s.modCore c f).core d = s.core d :=
  s.core_setCore_ne c d _ h

/-- Landing a result of the floating-point unit touches no instruction that waits. -/
@[simp] theorem Core.landFp_held (k : Core) : k.landFp.held = k.held := by
  have one : ∀ (q : List FpDue) (k : Core), (q.foldl Core.landOne k).held = k.held := by
    intro q
    induction q with
    | nil => intro k; rfl
    | cons p t ih => intro k; rw [List.foldl_cons, ih]; rfl
  exact one _ k

/-- An instruction whose checks pass is its body at the state it starts from. -/
theorem State.issue_settles {s u : State} {c : CoreId} {opc len : Nat} {w : L64} {bad guard check uses} {body : Body}
    (h : Passes s c opc len w bad guard check uses u) :
    s.issue c opc len w bad guard check uses body = (s.fetched c len).settle c opc len w (body u) := by
  obtain ⟨h1, h0, h2, h3, h4, h5, h6, rfl, h7, h8, h9⟩ := h
  simp only [State.issue, h1, h0, Bool.not_true, Bool.or_self, Bool.false_eq_true, if_false, State.core_modCore, h2, Core.landFp_held]
  cases hf : (s.core c).held with
  | none =>
    have e : (s.modCore c Core.landFp).fetchLines c (s.core c).landFp.pcc.cursor.toNat len = s.fetched c len := by
      simp [State.fetched, hf]
    simp only [Option.isNone_none, if_true, h3 hf, e, h4, State.perform9, State.checked, h5, State.owed, h6, State.execute, h7, h8, h9,
      Bool.false_eq_true, if_false, ite_self]
  | some x =>
    have e : s.modCore c Core.landFp = s.fetched c len := by simp [State.fetched, hf]
    simp only [Option.isNone_some, Bool.false_eq_true, if_false, h4, if_true, e, State.perform9, State.checked, h5, State.owed, h6,
      State.execute, h7, h8, h9, ite_self]

/-- An instruction whose checks pass and whose body completes leaves what `State.finished` says. -/
theorem State.issue_passes {s u : State} {c : CoreId} {opc len : Nat} {w : L64} {bad guard check uses} {body : Body} {d : Done}
    (h : Passes s c opc len w bad guard check uses u) (hb : body u = .ok d) :
    s.issue c opc len w bad guard check uses body = s.finished c len d := by
  rw [State.issue_settles h, hb]; rfl

/-- One whose body raises an exception leaves what `State.faulted` says. -/
theorem State.issue_raises {s u v : State} {c : CoreId} {opc len : Nat} {w : L64} {bad guard check uses} {body : Body} {x : ExcOperand}
    (h : Passes s c opc len w bad guard check uses u) (hb : body u = .error (.exc x v)) :
    s.issue c opc len w bad guard check uses body = s.faulted c len x v := by
  rw [State.issue_settles h, hb]; rfl

/-- One whose body waits leaves what `State.waiting` says. -/
theorem State.issue_waits {s u v : State} {c : CoreId} {opc len : Nat} {w : L64} {bad guard check uses} {body : Body} {g : Bool}
    (h : Passes s c opc len w bad guard check uses u) (hb : body u = .error (.hold v g)) :
    s.issue c opc len w bad guard check uses body = s.waiting c opc len w g v := by
  rw [State.issue_settles h, hb]; rfl

/-- As `State.issue_passes` for an L64 instruction. -/
theorem State.issueL_passes {s u : State} {c : CoreId} {opc len : Nat} {e : Enc} {w : L64} {uses} {body : Body} {d : Done}
    (h : PassesL s c opc len e w uses u) (hb : body u = .ok d) : s.issueL c opc len e w uses body = s.finished c len d :=
  State.issue_passes h hb

/-- As `State.issue_raises` for an L64 instruction. -/
theorem State.issueL_raises {s u v : State} {c : CoreId} {opc len : Nat} {e : Enc} {w : L64} {uses} {body : Body} {x : ExcOperand}
    (h : PassesL s c opc len e w uses u) (hb : body u = .error (.exc x v)) : s.issueL c opc len e w uses body = s.faulted c len x v :=
  State.issue_raises h hb

/-- As `State.issue_waits` for an L64 instruction. -/
theorem State.issueL_waits {s u v : State} {c : CoreId} {opc len : Nat} {e : Enc} {w : L64} {uses} {body : Body} {g : Bool}
    (h : PassesL s c opc len e w uses u) (hb : body u = .error (.hold v g)) : s.issueL c opc len e w uses body = s.waiting c opc len w g v :=
  State.issue_waits h hb

end Sys2Proof.Machine
end

