-- ==== Sys2Proof/Laws/Memory.lean ====
section
/-! SUPPORT. Sparse tables and memory: reading back a write, other places left alone, and the canonical form kept by every memory
operation. -/

namespace Sys2Proof.Sparse

variable {α : Type}

theorem get_insert_self (d : α) (m : List (Nat × α)) (a : Nat) (v : α) (h : ∀ e ∈ m, e.1 ≠ a) : get d (insert m a v) a = v := by
  induction m with
  | nil => simp [insert, get]
  | cons e t ih =>
    obtain ⟨k, w⟩ := e
    have hk : k ≠ a := h (k, w) List.mem_cons_self
    simp only [insert]
    split
    · simp [get]
    · simp [get, hk, ih fun e he => h e (List.mem_cons_of_mem _ he)]

theorem get_insert_ne (d : α) (m : List (Nat × α)) (a b : Nat) (v : α) (h : b ≠ a) : get d (insert m a v) b = get d m b := by
  induction m with
  | nil => simp [insert, get, h.symm]
  | cons e t ih =>
    obtain ⟨k, w⟩ := e
    simp only [insert]
    split
    · simp [get, h.symm]
    · simp only [get, ih]

theorem get_erase_self (d : α) (m : List (Nat × α)) (a : Nat) : get d (erase m a) a = d := by
  induction m with
  | nil => rfl
  | cons e t ih =>
    obtain ⟨k, w⟩ := e
    by_cases hk : k = a
    · subst hk
      simpa [erase, get] using ih
    · simpa [erase, get, hk] using ih

theorem get_erase_ne (d : α) (m : List (Nat × α)) (a b : Nat) (h : b ≠ a) : get d (erase m a) b = get d m b := by
  induction m with
  | nil => rfl
  | cons e t ih =>
    obtain ⟨k, w⟩ := e
    by_cases hk : k = a
    · subst hk
      simpa [erase, get, h.symm] using ih
    · have e1 : erase ((k, w) :: t) a = (k, w) :: erase t a := by simp [erase, hk]
      rw [e1]
      simp only [get, ih]

theorem erase_key (m : List (Nat × α)) (a : Nat) : ∀ e ∈ erase m a, e.1 ≠ a := by
  intro e he
  simpa using (List.mem_filter.mp he).2

/-- A write is read back. -/
@[simp] theorem get_set_self [DecidableEq α] (d : α) (m : List (Nat × α)) (a : Nat) (v : α) : get d (set d m a v) a = v := by
  unfold set
  split
  · next h => rw [get_erase_self, h]
  · exact get_insert_self d _ a v (erase_key m a)

/-- A write leaves every other place. -/
theorem get_set_ne [DecidableEq α] (d : α) (m : List (Nat × α)) (a b : Nat) (v : α) (h : b ≠ a) : get d (set d m a v) b = get d m b := by
  unfold set
  split
  · exact get_erase_ne d m a b h
  · rw [get_insert_ne d _ a b v h, get_erase_ne d m a b h]

/-- Leaving entries out keeps the canonical form. -/
theorem wf_filter [DecidableEq α] (d : α) (m : List (Nat × α)) (p : Nat × α → Bool) (h : wf d m) : wf d (m.filter p) :=
  ⟨h.1.sublist ((List.filter_sublist).map Prod.fst), fun e he => h.2 e (List.mem_of_mem_filter he)⟩

theorem wf_erase [DecidableEq α] (d : α) (m : List (Nat × α)) (a : Nat) (h : wf d m) : wf d (erase m a) := wf_filter d m _ h

theorem of_mem_insert (m : List (Nat × α)) (a : Nat) (v : α) : ∀ e ∈ insert m a v, e = (a, v) ∨ e ∈ m := by
  induction m with
  | nil => intro e he; simpa [insert] using he
  | cons x t ih =>
    intro e he
    simp only [insert] at he
    split at he
    · simpa using he
    · rcases List.mem_cons.mp he with rfl | he
      · simp
      · exact (ih e he).imp_right (List.mem_cons_of_mem _)

theorem wf_insert [DecidableEq α] (d : α) (m : List (Nat × α)) (a : Nat) (v : α) (h : wf d m) (hv : v ≠ d) (ha : ∀ e ∈ m, e.1 ≠ a) :
    wf d (insert m a v) := by
  refine ⟨?_, fun e he => (of_mem_insert m a v e he).elim (fun x => x ▸ hv) (h.2 e)⟩
  induction m with
  | nil => simp [insert]
  | cons x t ih =>
    have hx : x.1 ≠ a := ha x List.mem_cons_self
    have h1 := h.1
    simp only [List.map_cons, List.pairwise_cons] at h1
    simp only [insert]
    split
    · next lt =>
      simp only [List.map_cons, List.pairwise_cons, List.mem_cons]
      exact ⟨fun b hb => hb.elim (fun e => e ▸ lt) fun hb => lt.trans (h1.1 b hb), h1⟩
    · next ge =>
      simp only [List.map_cons, List.pairwise_cons]
      refine ⟨fun b hb => ?_, ih ⟨h1.2, fun e he => h.2 e (List.mem_cons_of_mem _ he)⟩
        (fun e he => ha e (List.mem_cons_of_mem _ he))⟩
      obtain ⟨e, he, rfl⟩ := List.mem_map.mp hb
      rcases of_mem_insert t a v e he with rfl | he
      · exact Nat.lt_of_le_of_ne (Nat.le_of_not_lt ge) hx
      · exact h1.1 _ (List.mem_map.mpr ⟨e, he, rfl⟩)

/-- A write keeps the canonical form. -/
theorem wf_set [DecidableEq α] (d : α) (m : List (Nat × α)) (a : Nat) (v : α) (h : wf d m) : wf d (set d m a v) := by
  unfold set
  split
  · exact wf_erase d m a h
  · next hv => exact wf_insert d _ a v (wf_erase d m a h) hv (erase_key m a)

end Sys2Proof.Sparse

namespace Sys2Proof.Machine

open Sys2Proof

/-! ## Bytes -/

theorem Memory.byte_setBytes_out (m : Memory) (l : List Byte) (a b : Nat) (h : b < a ∨ a + l.length ≤ b) :
    (m.setBytes a l).byte b = m.byte b := by
  induction l generalizing m a with
  | nil => rfl
  | cons x t ih =>
    simp only [List.length_cons] at h
    rw [Memory.setBytes, ih _ _ (by omega), Memory.byte, Memory.byte, Sparse.get_set_ne _ _ _ _ _ (by omega)]

theorem Memory.byte_setBytes_in (m : Memory) (l : List Byte) (a i : Nat) (h : i < l.length) :
    (m.setBytes a l).byte (a + i) = l[i] := by
  induction l generalizing m a i with
  | nil => simp at h
  | cons x t ih =>
    rw [Memory.setBytes]
    cases i with
    | zero => rw [Memory.byte_setBytes_out _ _ _ _ (by omega)]; simp [Memory.byte]
    | succ i =>
      have := ih { m with data := Sparse.set 0 m.data a x } (a + 1) i (by simpa using h)
      simpa [Nat.add_assoc, Nat.add_comm 1 i] using this

@[simp] theorem Memory.setBytes_tags (m : Memory) (a : Nat) (l : List Byte) : (m.setBytes a l).tags = m.tags := by
  induction l generalizing m a with
  | nil => rfl
  | cons x t ih => rw [Memory.setBytes, ih]

@[simp] theorem Memory.setTag_data (m : Memory) (w : Nat) (t : Tag) : (m.setTag w t).data = m.data := rfl

@[simp] theorem Memory.uncapOther_data (m : Memory) (w : Nat) : (m.uncapOther w).data = m.data := by
  unfold Memory.uncapOther; split <;> rfl

@[simp] theorem Memory.retagWord_data (m : Memory) (lo n w : Nat) (t : Tag) : (m.retagWord lo n w t).data = m.data := by
  unfold Memory.retagWord; split <;> simp

@[simp] theorem Memory.tagWrite_data (m : Memory) (cur : Tag) (w : Nat) (whole : Bool) (t : Tag) : (m.tagWrite cur w whole t).data = m.data := by
  simp only [Memory.tagWrite]; split
  · rfl
  · split
    · simp
    · split <;> rfl

/-- Tagging the words of a write changes no byte. -/
theorem Memory.tags_fold_data (l : List Nat) (f : Memory → Nat → Memory) (hf : ∀ m i, (f m i).data = m.data) (m : Memory) :
    (l.foldl f m).data = m.data := by
  induction l generalizing m with
  | nil => rfl
  | cons x t ih => rw [List.foldl_cons, ih, hf]

theorem Memory.put_data (m : Memory) (w : Write) : (m.put w).data = (m.setBytes w.addr w.bytes).data := by
  unfold Memory.put
  dsimp only
  split
  · next h =>
    rw [List.eq_nil_of_length_eq_zero h, Memory.setBytes]
    exact Memory.tags_fold_data _ _ (fun m _ => m.retagWord_data ..) _
  · exact Memory.tags_fold_data _ _ (fun m _ => m.tagWrite_data ..) _

/-- A write leaves every byte outside its own. -/
theorem Memory.byte_put_out (m : Memory) (w : Write) (b : Nat) (h : b < w.addr ∨ w.addr + w.bytes.length ≤ b) :
    (m.put w).byte b = m.byte b := by
  rw [← Memory.byte_setBytes_out m w.bytes w.addr b h, Memory.byte, Memory.byte, Memory.put_data]

/-- A write's bytes are read back. -/
theorem Memory.byte_put_in (m : Memory) (w : Write) (i : Nat) (h : i < w.bytes.length) :
    (m.put w).byte (w.addr + i) = w.bytes[i] := by
  rw [← Memory.byte_setBytes_in m w.bytes w.addr i h, Memory.byte, Memory.byte, Memory.put_data]

/-! ## The canonical form -/

theorem Memory.wf_empty : Memory.empty.wf := ⟨⟨.nil, by simp [Memory.empty]⟩, .nil, by simp [Memory.empty]⟩

theorem Memory.wf_setBytes (m : Memory) (a : Nat) (l : List Byte) (h : m.wf) : (m.setBytes a l).wf := by
  induction l generalizing m a with
  | nil => exact h
  | cons x t ih => exact ih _ _ ⟨Sparse.wf_set _ _ _ _ h.1, h.2⟩

theorem Memory.wf_setTag (m : Memory) (w : Nat) (t : Tag) (h : m.wf) : (m.setTag w t).wf := ⟨h.1, Sparse.wf_set _ _ _ _ h.2⟩

theorem Memory.wf_uncapOther (m : Memory) (w : Nat) (h : m.wf) : (m.uncapOther w).wf := by
  unfold Memory.uncapOther; split
  · exact Memory.wf_setTag _ _ _ h
  · exact h

theorem Memory.wf_retagWord (m : Memory) (lo n w : Nat) (t : Tag) (h : m.wf) : (m.retagWord lo n w t).wf := by
  unfold Memory.retagWord; split
  · exact Memory.wf_setTag _ _ _ h
  · exact Memory.wf_uncapOther _ _ (Memory.wf_setTag _ _ _ h)

theorem Memory.wf_tagWrite (m : Memory) (cur : Tag) (w : Nat) (whole : Bool) (t : Tag) (h : m.wf) : (m.tagWrite cur w whole t).wf := by
  simp only [Memory.tagWrite]; split
  · exact Memory.wf_setTag _ _ _ h
  · split
    · exact Memory.wf_uncapOther _ _ (Memory.wf_setTag _ _ _ h)
    · split
      · exact h
      · exact Memory.wf_setTag _ _ _ h

/-- A write keeps the canonical form. -/
theorem Memory.wf_put (m : Memory) (w : Write) (h : m.wf) : (m.put w).wf := by
  have fold : ∀ (l : List Nat) (f : Memory → Nat → Memory), (∀ m i, m.wf → (f m i).wf) → ∀ m : Memory, m.wf → (l.foldl f m).wf := by
    intro l f hf
    induction l with
    | nil => exact fun m h => h
    | cons x t ih => exact fun m h => ih _ (hf m x h)
  unfold Memory.put
  dsimp only
  split
  · exact fold _ _ (fun m _ h => Memory.wf_retagWord m _ _ _ _ h) _ h
  · exact fold _ _ (fun m _ h => Memory.wf_tagWrite m _ _ _ _ h) _ (Memory.wf_setBytes _ _ _ h)

/-- A range initialised again keeps it. -/
theorem Memory.wf_clearRange (m : Memory) (lo n : Nat) (h : m.wf) : (m.clearRange lo n).wf :=
  ⟨Sparse.wf_filter _ _ _ h.1, Sparse.wf_filter _ _ _ h.2⟩

/-- A yard initialised keeps it. -/
theorem Memory.wf_clearYard (m : Memory) (y : Yard) (h : m.wf) : (m.clearYard y).wf :=
  ⟨Sparse.wf_filter _ _ _ h.1, Sparse.wf_filter _ _ _ h.2⟩

end Sys2Proof.Machine
end

