-- ==== Sys2Proof/Laws/Stores.lean ====
section
/-! SUPPORT. What stores do, said once for each shared operation: access requests, writes performed, the store buffer, a destination
written, and the canonical form of memory kept by all of them. -/

namespace Sys2Proof.Machine

open Sys2Proof

/-! ## Folds -/

/-- What every step of a fold keeps, the fold keeps. -/
theorem State.fold_keeps {α β : Type} (q : State → β) (l : List α) (f : State → α → State) (hf : ∀ s x, q (f s x) = q s) (s : State) :
    q (l.foldl f s) = q s := by
  induction l generalizing s with
  | nil => rfl
  | cons x t ih => rw [List.foldl_cons, ih, hf]

/-- A fold of steps that keep the form of memory keeps it. -/
theorem State.wf_fold {α : Type} (l : List α) (f : State → α → State) (hf : ∀ s x, s.mem.wf → (f s x).mem.wf) (s : State)
    (h : s.mem.wf) : (l.foldl f s).mem.wf := by
  induction l generalizing s with
  | nil => exact h
  | cons x t ih => exact ih _ (hf s x h)

/-! ## Requests of REF and CHG -/

/-- A page touched changes a key cache, asks for its bits and does nothing else. -/
theorem State.touchPage_eq (s : State) (c : CoreId) (w : Bool) (p : Nat) :
    ∃ h l, s.touchPage c w p = { s with sheds := h, refChg := l } := by
  simp only [State.touchPage]; split <;> split <;> exact ⟨_, _, rfl⟩

/-- An access fills a key cache, asks for REF, and CHG where it writes, and does nothing else. -/
theorem State.touch_eq (s : State) (c : CoreId) (w : Bool) (a n : Nat) : ∃ h l, s.touch c w a n = { s with sheds := h, refChg := l } := by
  have fold : ∀ (ps : List Nat) (s : State), ∃ h l, ps.foldl (fun s p => s.touchPage c w p) s = { s with sheds := h, refChg := l } := by
    intro ps
    induction ps with
    | nil => exact fun s => ⟨_, _, rfl⟩
    | cons p t ih =>
      intro s
      obtain ⟨h, l, e⟩ := s.touchPage_eq c w p
      obtain ⟨h', l', e'⟩ := ih (s.touchPage c w p)
      exact ⟨h', l', by rw [List.foldl_cons, e', e]⟩
  unfold State.touch
  split
  · exact fold _ s
  · exact ⟨_, _, rfl⟩

@[simp] theorem State.touch_mem (s : State) (c : CoreId) (w : Bool) (a n : Nat) : (s.touch c w a n).mem = s.mem := by
  obtain ⟨h, l, e⟩ := s.touch_eq c w a n; rw [e]

@[simp] theorem State.touch_cores (s : State) (c : CoreId) (w : Bool) (a n : Nat) : (s.touch c w a n).cores = s.cores := by
  obtain ⟨h, l, e⟩ := s.touch_eq c w a n; rw [e]

@[simp] theorem State.touchReads_mem (s : State) (c : CoreId) (us : List Use) : (s.touchReads c us).mem = s.mem :=
  State.fold_keeps State.mem _ _ (fun s _ => s.touch_mem ..) s

@[simp] theorem State.touchReads_cores (s : State) (c : CoreId) (us : List Use) : (s.touchReads c us).cores = s.cores :=
  State.fold_keeps State.cores _ _ (fun s _ => s.touch_cores ..) s

/-! ## Caches -/

@[simp] theorem State.replaceDir_mem (s : State) (line : Nat) : (s.replaceDir line).mem = s.mem := by
  simp only [State.replaceDir, State.endReservations, State.modYard_mem, State.invalidateOthers]

/-- A directory record set or removed changes no memory, though one of its set may have to be replaced. -/
@[simp] theorem State.setDir_mem (s : State) (line : Nat) (d : Option Dir) : (s.setDir line d).mem = s.mem := by
  cases d with
  | none => simp only [State.setDir, State.modYard_mem]
  | some d => simp only [State.setDir, State.modYard_mem]; split <;> simp only [State.replaceDir_mem]

/-- A directory record removed changes no core. -/
@[simp] theorem State.setDir_none_cores (s : State) (line : Nat) : (s.setDir line none).cores = s.cores := by
  simp only [State.setDir, State.modYard_cores]

@[simp] theorem State.recallLine_mem (s : State) (line : Nat) : (s.recallLine line).mem = s.mem := by
  rw [State.recallLine, State.setDir_mem, State.invalidateOthers]

@[simp] theorem State.recallLine_cores (s : State) (line : Nat) : (s.recallLine line).cores = s.cores := by
  rw [State.recallLine, State.setDir_none_cores, State.invalidateOthers]

@[simp] theorem State.fillL1d_mem (s : State) (c : CoreId) (line : Nat) : (s.fillL1d c line).mem = s.mem := by
  unfold State.fillL1d; split <;> rfl

@[simp] theorem State.fillL1d_cores (s : State) (c : CoreId) (line : Nat) : (s.fillL1d c line).cores = s.cores := by
  unfold State.fillL1d; split <;> rfl

/-- Lines read in the caches change no memory. -/
@[simp] theorem State.readLines_mem (s : State) (c : CoreId) (a n : Nat) : (s.readLines c a n).mem = s.mem := by
  unfold State.readLines; split
  · exact State.fold_keeps State.mem _ _ (fun s l => by split <;> simp) s
  · rfl

@[simp] theorem State.readLines_cores (s : State) (c : CoreId) (a n : Nat) : (s.readLines c a n).cores = s.cores := by
  unfold State.readLines; split
  · exact State.fold_keeps State.cores _ _ (fun s l => by split <;> simp) s
  · rfl

/-- A fetch changes no memory. -/
@[simp] theorem State.fetchLines_mem (s : State) (c : CoreId) (a n : Nat) : (s.fetchLines c a n).mem = s.mem := by
  unfold State.fetchLines; dsimp only; split
  · rw [State.fold_keeps State.mem _ _ (fun s l => ?_), State.touch_mem]
    split
    · split
      · rfl
      · rw [State.modCore_mem, State.recallLine_mem]
    · split <;> rfl
  · exact State.touch_mem ..

/-- A fetch changes nothing of the core but its block buffer. -/
theorem State.fetchLines_core (s : State) (c : CoreId) (a n : Nat) :
    ∃ b, (s.fetchLines c a n).core c = { s.core c with block := b } := by
  have fold : ∀ (l : List Nat) (s : State), ∃ b, (l.foldl (fun s l =>
      if (s.core c).det then
        if (s.fetchedLine c l).isSome then s
        else (s.recallLine l).modCore c fun k => { k with block := some (l, s.lineTags c l) }
      else if (s.core c).l1iOn then { s with l1i := lruFill (fun e => (e.1, e.2.1)) (c, l, s.lineTags c l) s.l1i }
      else s) s).core c = { s.core c with block := b } := by
    intro l
    induction l with
    | nil => exact fun s => ⟨(s.core c).block, rfl⟩
    | cons x t ih =>
      intro s
      rw [List.foldl_cons]
      obtain ⟨b, e⟩ := ih _
      refine ⟨b, e.trans ?_⟩
      split
      · split
        · rfl
        · rw [State.core_modCore, State.core, State.recallLine_cores]; rfl
      · split <;> rfl
  unfold State.fetchLines
  dsimp only
  split
  · obtain ⟨b, e⟩ := fold (lineIdsOf a n) (s.touch c false a n)
    exact ⟨b, by rw [e, State.core, State.touch_cores]; rfl⟩
  · exact ⟨(s.core c).block, by rw [State.core, State.touch_cores]; rfl⟩

@[simp] theorem State.fetched_mem (s : State) (c : CoreId) (len : Nat) : (s.fetched c len).mem = s.mem := by
  unfold State.fetched; split
  · rw [State.fetchLines_mem, State.modCore_mem]
  · exact State.modCore_mem ..

/-- A fetch writes the results whose cycle has come and changes nothing else of the core but its block buffer. -/
theorem State.fetched_core (s : State) (c : CoreId) (len : Nat) :
    ∃ b, (s.fetched c len).core c = { (s.core c).landFp with block := b } := by
  unfold State.fetched; split
  · obtain ⟨b, e⟩ := State.fetchLines_core (s.modCore c Core.landFp) c ((s.modCore c Core.landFp).core c).pcc.cursor.toNat len
    rw [State.core_modCore] at e
    exact ⟨b, e⟩
  · exact ⟨_, State.core_modCore ..⟩

/-! ## Writes performed -/

/-- A write of one line: discarded with a record where the line is lost, else made in memory. -/
theorem State.performLine_mem (s : State) (by_ : Option CoreId) (w : Write) :
    (s.performLine by_ w).mem = if s.lostAt w.addr then s.mem else s.mem.put w := by
  unfold State.performLine State.discard
  split
  · exact State.log_mem ..
  · rfl

theorem State.performLine_wf (s : State) (by_ : Option CoreId) (w : Write) (h : s.mem.wf) : (s.performLine by_ w).mem.wf := by
  rw [State.performLine_mem]; split
  · exact h
  · exact Memory.wf_put _ _ h

theorem State.performLines_wf (s : State) (by_ : Option CoreId) (l : List Write) (h : s.mem.wf) :
    (l.foldl (fun s w => s.performLine by_ w) s).mem.wf := by
  induction l generalizing s with
  | nil => exact h
  | cons w t ih =>
    simp only [List.foldl_cons]
    exact ih _ (s.performLine_wf by_ w h)

theorem State.perform_wf (s : State) (by_ : Option CoreId) (w : Write) (h : s.mem.wf) : (s.perform by_ w).mem.wf :=
  s.performLines_wf by_ _ h

theorem State.performEntry_wf (s : State) (c : CoreId) (e : SbEntry) (h : s.mem.wf) : (s.performEntry c e).mem.wf :=
  State.wf_fold _ _ (fun s w => s.perform_wf (some c) w) s h

theorem State.drainOne_wf (s : State) (c : CoreId) (h : s.mem.wf) : (s.drainOne c).mem.wf := by
  unfold State.drainOne; split
  · exact h
  · exact State.performEntry_wf _ _ _ h

theorem State.drainAll_wf (s : State) (c : CoreId) (h : s.mem.wf) : (s.drainAll c).mem.wf :=
  State.wf_fold _ _ (fun s e => s.performEntry_wf c e) _ h

theorem State.buffer_wf (s : State) (c : CoreId) (w : Write) (h : s.mem.wf) : (s.buffer c w).mem.wf := by
  simp only [State.buffer]; split
  · exact h
  · rw [State.modCore_mem]; split
    · exact h
    · exact State.drainOne_wf _ _ h

theorem State.drainSome_wf (s : State) (c : CoreId) (n : Nat) (h : s.mem.wf) : (s.drainSome c n).mem.wf := by
  induction n generalizing s with
  | zero => exact h
  | succ n ih => exact ih _ (State.drainOne_wf _ _ h)

/-- The reads of an instruction keep the form of memory. -/
theorem State.readied_wf (s : State) (c : CoreId) (us : List Use) (h : s.mem.wf) : (s.readied c us).mem.wf := by
  unfold State.readied
  dsimp only
  rw [State.fold_keeps State.mem _ _ (fun s r => s.readLines_mem ..)]
  exact State.drainSome_wf _ _ _ (by rw [State.touchReads_mem]; exact h)

/-- The words that a core's later fetches see are no words of memory. -/
@[simp] theorem State.seeStore_mem (s : State) (c : CoreId) (a n : Nat) : (s.seeStore c a n).mem = s.mem := rfl

theorem State.store_wf (s : State) (c : CoreId) (w : Write) (h : s.mem.wf) : (s.store c w).mem.wf := by
  have ht : (s.touch c true w.addr w.len).mem.wf := (State.touch_mem s c true w.addr w.len).symm ▸ h
  unfold State.store; split
  · dsimp only; rw [State.seeStore_mem]; split
    · exact State.perform_wf _ _ _ (State.drainAll_wf _ _ ht)
    · exact State.wf_fold _ _ (fun s w => s.buffer_wf c w) _ ht
  · exact Memory.wf_put _ _ h
  · exact Memory.wf_put _ _ h
  · exact h

/-! ## A destination written -/

/-- A write to memory that is carried out is a write to core control space, the store of its bytes, or in the shed window, where port B
has uses to show, the store of its words; one that lacks a claim waits or rolls its segment back, and a refused word ends it. -/
theorem State.writeMem_cases {s p : State} {c : CoreId} {o : Nat} {w : Write} {pair : Bool} (h : s.writeMem c o w pair = .ok p) :
    (s.region w.addr = .ccs ∧
      p = s.modCore c fun k => k.ccsWrite (w.addr - 0x02000000) (BitVec.ofNat 64 (leNat w.bytes))) ∨
    (s.region w.addr ≠ .ccs ∧ p = s.store c w) ∨
    (s.region w.addr = .window ∧ (s.core c).ports ≠ [] ∧ s.storeWindow c o pair w = .ok p) := by
  unfold State.writeMem at h
  split at h
  · next r =>
    split at h
    · exact .inr (.inl ⟨by simp [r], (Except.ok.inj h).symm⟩)
    · next hp => exact .inr (.inr ⟨r, hp, h⟩)
  · next r => exact .inl ⟨r, (Except.ok.inj h).symm⟩
  · next r =>
    refine .inr (.inl ⟨by simp [r], ?_⟩)
    split at h
    · exact (Except.ok.inj h).symm
    · split at h
      · exact (Except.ok.inj h).symm
      · split at h <;> cases h
  · next r _ => exact .inr (.inl ⟨r, (Except.ok.inj h).symm⟩)

/-- A destination written: an immediate takes nothing, a register value and tag, memory the bytes and the store tag. -/
theorem State.putValue_cases {s p : State} {c : CoreId} {o : Opd} {n : Nat} {x : Val} (h : s.putValue c o n x = .ok p) :
    ((∃ v, o.place = .imm v) ∧ p = s) ∨
    (∃ r, o.place = .reg r ∧ p = s.modCore c fun k =>
      if n = 16 then (k.setG r (BitVec.ofNat 64 x.v) x.tag).setG (r + 1) (BitVec.ofNat 64 (x.v / 2 ^ 64)) x.tag
      else k.setGReg r ⟨x.w, x.tag, x.mark⟩) ∨
    (∃ cap a, o.place = .mem cap a ∧
      s.writeMem c o.n ⟨a.toNat, toLe n x.v, tagsFor a.toNat n (storeTag x.tag)⟩ = .ok p) := by
  unfold State.putValue at h
  split at h
  · next v e => exact .inl ⟨⟨v, e⟩, (Except.ok.inj h).symm⟩
  · next r e => exact .inr (.inl ⟨r, e, (Except.ok.inj h).symm⟩)
  · next cap a e => exact .inr (.inr ⟨cap, a, e, h⟩)

theorem State.storeWindow_wf {s p : State} {c : CoreId} {o : Nat} {pair : Bool} {w : Write} (hs : s.mem.wf)
    (h : s.storeWindow c o pair w = .ok p) : p.mem.wf := by
  unfold State.storeWindow at h
  dsimp only at h
  split at h
  · cases h
  · cases h
    refine State.wf_fold _ _ (fun s x hs => ?_) s hs
    split
    · exact hs
    · exact State.store_wf _ _ _ hs

theorem State.writeMem_wf {s p : State} {c : CoreId} {o : Nat} {w : Write} {pair : Bool} (hs : s.mem.wf)
    (h : s.writeMem c o w pair = .ok p) : p.mem.wf := by
  rcases State.writeMem_cases h with ⟨-, rfl⟩ | ⟨-, rfl⟩ | ⟨-, -, h⟩
  · exact hs
  · exact State.store_wf _ _ _ hs
  · exact State.storeWindow_wf hs h

theorem State.putValue_wf {s p : State} {c : CoreId} {o : Opd} {n : Nat} {x : Val} (hs : s.mem.wf) (h : s.putValue c o n x = .ok p) :
    p.mem.wf := by
  rcases State.putValue_cases h with ⟨-, rfl⟩ | ⟨r, -, rfl⟩ | ⟨cap, a, -, h⟩
  · exact hs
  · exact hs
  · exact State.writeMem_wf hs h

/-! ## Exceptions -/

/-- An exception below depth 3 enters one depth up (07 R195). -/
theorem Core.takeExc_below (k : Core) (e : ExcOperand) (slot : Nat) (h : k.depth.val < 3) :
    k.takeExc e slot = k.enterAt ⟨k.depth.val + 1, by omega⟩ e slot := by
  simp [Core.takeExc, h]

/-- An exception at depth 3 stops the core (07 R209). -/
theorem Core.takeExc_top (k : Core) (e : ExcOperand) (slot : Nat) (h : ¬ k.depth.val < 3) :
    k.takeExc e slot = { k with run := .fatal e 1 } := by
  simp [Core.takeExc, h]

end Sys2Proof.Machine
end

