-- ==== Sys2Proof/Tests/Slice0.lean ====
section
/-! SUPPORT. Tests: terms that WellFormed refuses; instruction words written out from the spec's encodings; single steps on small
states; and for each statement with premises, a state and operands that meet them. -/

namespace Sys2Proof.Tests

open Sys2Proof Sys2Proof.Machine

/-! ## Small states -/

/-- A capability to run code in the first 16 KiB of the local bank (14 R372, after Table 14.9), at 0x1000. -/
def codeCap : Cap := { Cap.make 0xA0 0 0 0x4000 0 with cursor := 0x1000 }

/-- Every permission over the whole address map. -/
def allCap : Cap := Cap.make 0xFF 0 0 0x12000000000 0

/-- The same at an address. -/
def at_ (a : Word) : Cap := { allCap with cursor := a }

/-- A register tagged BIN. -/
def bin (v : Word) : GReg := ⟨v, 0, none⟩

/-- A bank: G1 = 5, G2 = 7, G3 the greatest signed number, G4 = 0x123, G5 = 16, G6 = 3; C1 at bank byte 0x2000, C2 at 0x3000, C3 at the
start of main memory, C4 in a window of another core of the shed. -/
def bank : Bank where
  g := #v[bin 0, bin 5, bin 7, bin 0x7FFFFFFFFFFFFFFF, bin 0x123, bin 16, bin 3, bin 0, bin 0, bin 0, bin 0, bin 0, bin 0, bin 0, bin 0,
    bin 0]
  c := #v[Cap.null, at_ 0x2000, at_ 0x3000, at_ 0x10000000000, at_ 0x01080000, Cap.null, Cap.null, Cap.null, Cap.null, Cap.null, Cap.null,
    Cap.null, Cap.null, Cap.null, Cap.null, allCap]
  p := 0x06
  pcc := codeCap

/-- A core that runs at 0x1000. -/
def core0 : Core := { Core.reset with run := .running, banks := Vector.replicate 4 bank, hpcc := codeCap, hdcc := allCap }

/-- The module with core 0 running at 0x1000, where two words are tagged CODE. -/
def ready : State := { State.reset.setCore 0 core0 with mem := ⟨[], [(0x200, 8), (0x201, 8)]⟩ }

/-- The same with core 0 changed. -/
def readyWith (f : Core → Core) : State := ready.modCore 0 f

/-- The same with bytes listed, from bank byte 0x2000 on. -/
def readyMem (l : List (Nat × Byte)) (tags : List (Nat × Tag)) : State :=
  { ready with mem := ⟨l, [(0x200, 8), (0x201, 8)] ++ tags⟩ }

/-- Specifier of a register. -/
def reg (r : BitVec 4) : BitVec 16 := 0b000#3 ++ r ++ 0#9
/-- Specifier of memory at C[r]. -/
def mem (r : BitVec 4) : BitVec 16 := 0b001#3 ++ r ++ 0#9
/-- Specifier of an immediate. -/
def imm (v : BitVec 9) : BitVec 16 := 0b110#3 ++ 0#4 ++ v
/-- An unguarded L64. -/
def l64 (a b c : BitVec 16) : L64 := ⟨0, false, a, b, c⟩

/-- Every check of `Passes`, and one more, as a test. -/
def passesB (s : State) (c : CoreId) (opc len : Nat) (w : L64) (bad : Bool → Option (Nat × Nat × Nat)) (guard : Core → Bool)
    (check : State → Option ExcOperand) (uses : State → List Use) (q : State → Bool) : Bool :=
  let k := (s.core c).landFp
  let u := (s.fetched c len).readied c (uses (s.fetched c len))
  s.canIssue c && (s.core c).turn opc len w && !(k.delay.map (·.annul)).getD false
    && ((s.core c).held.isSome || ((s.modCore c Core.landFp).earlyFault c len (bad k.delay.isSome)).isNone)
    && guard k && (check (s.fetched c len)).isNone && ((s.fetched c len).core c).owedFault.isNone
    && !(u.core c).entryFails opc && !(u.core c).beginOnly && (u.markFault c (uses u)).isNone && q u

/-- An instruction that passes every check of the test passes. -/
theorem passes_of {s : State} {c : CoreId} {opc len : Nat} {w : L64} {bad : Bool → Option (Nat × Nat × Nat)} {guard : Core → Bool}
    {check : State → Option ExcOperand} {uses : State → List Use} {q : State → Bool}
    (h : passesB s c opc len w bad guard check uses q = true) : ∃ u, Passes s c opc len w bad guard check uses u ∧ q u = true := by
  simp only [passesB, Bool.and_eq_true, Bool.or_eq_true, Bool.not_eq_true', Option.isNone_iff_eq_none] at h
  obtain ⟨⟨⟨⟨⟨⟨⟨⟨⟨⟨h1, h0⟩, h2⟩, h3⟩, h4⟩, h5⟩, h6⟩, h7⟩, h8⟩, h9⟩, hq⟩ := h
  exact ⟨_, ⟨h1, h0, h2, fun h => h3.resolve_left (by simp [h]), h4, h5, h6, rfl, h7, h8, h9⟩, hq⟩

/-- As `passesB` for an L64. -/
abbrev passesLB (s : State) (c : CoreId) (opc len : Nat) (e : Enc) (w : L64) (uses : State → List Use) (q : State → Bool) : Bool :=
  passesB s c opc len w (e.bad w) (guardOf w) (fun s => s.accessFault c (uses s)) uses q

/-- Whether a write goes through. -/
def okay (x : Except Stop State) : Bool := x.toOption.isSome

theorem of_okay {x : Except Stop State} (h : okay x = true) : ∃ p, x = .ok p := by
  cases x with
  | error e => exact absurd h (by simp [okay, Except.toOption])
  | ok p => exact ⟨p, rfl⟩

/-- The state a command answers. -/
def after (i : Instr) (s : State) : State :=
  match exec i s with
  | .next t => t
  | _ => s


/-! ## What WellFormed refuses, and what it takes -/

theorem test_wf_opcode : Instr.wellFormed (.unassignedOpcode 0 (.l64 0x007 (l64 0 0 0))) = true ∧
    Instr.wellFormed (.unassignedOpcode 0 (.l64 0x001 (l64 0 0 0))) = false ∧
    Instr.wellFormed (.unassignedOpcode 0 (.s16 0x17 0 0)) = true ∧ Instr.wellFormed (.unassignedOpcode 0 (.s16 0x16 0 0)) = false := by
  decide

theorem test_wf_chunkErrors :
    (∀ i ∈ ([.lineRead .a 0, .rebuildStep .a, fun e => .patrolScrubLine .a e 0] : List (List ChunkError → Instr)),
      (i [⟨3, 1⟩, ⟨4, 2⟩]).wellFormed = true ∧ (i [⟨3, 1⟩, ⟨3, 2⟩]).wellFormed = false) := by
  decide

theorem test_wf_lineWrite : Instr.wellFormed (.lineWrite .a 0 255 [1] [0]) = true ∧ Instr.wellFormed (.lineWrite .a 0 255 [1, 2] [0]) = false ∧
    Instr.wellFormed (.lineWrite .a 0 7 [1, 2] [0]) = false ∧ Instr.wellFormed (.lineWrite .a 0 0 [] [0]) = false := by
  decide

theorem test_wf_bank : Instr.wellFormed (.bankScrubRow 0 [(0, false), (3, true)]) = true ∧
    Instr.wellFormed (.bankScrubRow 0 [(2, false), (2, true)]) = false := by
  decide

theorem test_wf_gate : Instr.wellFormed (.entryFetch 0 [1]) = false ∧
    Instr.wellFormed (.registerWrite .bar0 0 4 0) = true ∧ Instr.wellFormed (.registerWrite .bar0 0 3 0) = false := by
  decide

theorem test_wf_entry : Instr.wellFormed (.entryFetch 0 (List.replicate 128 0)) = true := by
  simp only [Instr.wellFormed, List.length_replicate]
  decide

theorem test_wf_frames :
    ∀ i ∈ ([.dataFrame 0, .refuse 0, .exported 0, .taken 0, .ack 0, .nak 0, .hello 0, .notready 0, .reservedFrameReceived 0] :
      List (FrameIn → Instr)), (i ⟨List.replicate 20 0, false⟩).wellFormed = true ∧ (i ⟨List.replicate 19 0, false⟩).wellFormed = false := by
  decide

theorem test_wf_smbus : Instr.wellFormed (.smbBlockTransfer (.read 255) .good) = true ∧
    Instr.wellFormed (.smbBlockTransfer (.read 256) .good) = false := by
  decide

theorem test_wf_smbusWrite : Instr.wellFormed (.smbBlockTransfer (.write (List.replicate 256 0)) .good) = false := by
  simp only [Instr.wellFormed, List.length_replicate]
  decide

theorem test_wf_steward :
    Instr.wellFormed (.controlLoopTick ⟨List.replicate 52 40, List.replicate 30 800, List.replicate 30 800, List.replicate 24 0, 900, 0⟩) = true ∧
    Instr.wellFormed (.controlLoopTick ⟨[], [], [], [], 900, 0⟩) = false ∧ Instr.wellFormed (.aisleCrcFailure 0 true 1) = true ∧
    Instr.wellFormed (.aisleCrcFailure 0 true 0) = false ∧ Instr.wellFormed (.throttleMigration 0 7 8) = true ∧
    Instr.wellFormed (.throttleMigration 0 8 7) = false ∧ Instr.wellFormed (.agingCheck (List.replicate 26 0) 0) = true ∧
    Instr.wellFormed (.agingCheck [] 0) = false ∧ Instr.wellFormed (.st1 ⟨true, 0, true, [], []⟩) = true ∧
    Instr.wellFormed (.st1 ⟨true, 0, true, List.replicate 5 [], []⟩) = false := by
  decide

/-! ## Words written out from 03 Tables 3.1 to 3.4 and 3.9 to 3.14 -/

/-- First halfword of an L64: FMT, GP, GI, OPC (03 Table 3.4). -/
def first (gp : BitVec 3) (gi : BitVec 1) (opc : BitVec 10) : BitVec 16 := 0b11#2 ++ gp ++ gi ++ opc

/-- One instruction of each opcode map on the same operands. -/
theorem test_decode_families :
    let w := l64 (reg 7) (mem 1) (imm 3)
    ∀ p ∈ ([(0b0000000001, .add 5 (.l64 w)), (0b0000100001, .divu 5 w), (0b0001000001, .mts 5 w), (0b0100000101, .dmovu 5 w),
        (0b0110001100, .scan 5 w), (0b1000000101, .fma 5 w), (0b1000010000, .dfadd 5 w), (0b1000101101, .dqclass 5 w),
        (0b1000110110, .ptodq 5 w), (0b1010000111, .cseta 5 w), (0b1010011010, .tagcode 5 w), (0b1011000011, .jmpl 5 w),
        (0b1011001010, .pflg 5 w), (0b1011010001, .fence 5 w), (0b1011011010, .stcn 5 w), (0b1011100011, .jdrop (.core 5 w)),
        (0b1011101001, .post (.core 5 w)), (0b1011110000, .signal 5 w), (0b1011111000, .nop 5 w),
        (0b0000000111, .unassignedOpcode 5 (.l64 7 w))] : List (BitVec 10 × Instr)),
      decodeWords 5 [first 0 0 p.1, reg 7, mem 1, imm 3, 0xABCD] = some (p.2, [0xABCD]) := by
  decide

/-- DSUB of 03 Table 3.15, and the same guarded by P2 false. -/
theorem test_decode_dsub :
    decodeWords 0 [0xC101, 0x2A20, 0x2A28, 0x2080] = some (.dsub 0 ⟨0, false, 0x2A20, 0x2A28, 0x2080⟩, []) ∧
    decodeWords 0 [0xD501, 0x2A20, 0x2A28, 0x2080] = some (.dsub 0 ⟨2, true, 0x2A20, 0x2A28, 0x2080⟩, []) := by
  decide

/-- Each S16 form: ALU, load, store, branch, compare, immediates, and the two unassigned operations. -/
theorem test_decode_s16 :
    ∀ p ∈ ([(0b00#2 ++ 0b000010#6 ++ 3#4 ++ 4#4, .add 5 (.s16 3 4)), (0b00#2 ++ 0b010110#6 ++ 0#4 ++ 0#4, .mwait 5 (.s16 0 0)),
        (0b01#2 ++ 0#1 ++ 0b10#2 ++ 9#4 ++ 0x7F#7, .shortLoadStore 5 false 2 9 0x7F),
        (0b01#2 ++ 1#1 ++ 0b00#2 ++ 1#4 ++ 0#7, .shortLoadStore 5 true 0 1 0), (0b10#2 ++ 0b00#2 ++ 1#1 ++ 6#3 ++ 0x80#8, .shortBranch 5 true 6 0x80),
        (0b10#2 ++ 0b01#2 ++ 4#3 ++ 0b101#3 ++ 8#4 ++ 0#2, .shortPcmp 5 4 5 8 0), (0b10#2 ++ 0b10#2 ++ 15#4 ++ 0xFF#8, .movi 5 15 0xFF),
        (0b10#2 ++ 0b11#2 ++ 1#4 ++ 0x7F#8, .addi 5 1 0x7F), (0x0000, .unassignedOpcode 5 (.s16 0 0 0)),
        (0b00#2 ++ 0b010111#6 ++ 0#4 ++ 0#4, .unassignedOpcode 5 (.s16 0x17 0 0))] : List (BitVec 16 × Instr)),
      decodeWords 5 [p.1] = some (p.2, []) := by
  decide

/-- The opcode table gives its rows no bits. -/
theorem test_decodeTableWord : decodeTableWord 64 0 = none := rfl

/-! ## Witnesses: the binary group -/

/-- Flags that follow a result exist. -/
theorem flags_exist (old : Word) (q : Claims.IntResult) : ∃ fl, Claims.FlagsAfter old fl q := by
  refine ⟨BitVec.ofFnLE fun j => if j.val = 0 then q.1 == 0 else if j.val = 1 then q.1.getLsbD 63
    else if j.val = 2 then q.2.1.getD (old.getLsbD 2) else if j.val = 3 then q.2.2.getD (old.getLsbD 3) else old.getLsbD j.val, ?_⟩
  refine ⟨by simp, by simp, by simp, by simp, fun i hi => ?_⟩
  rw [BitVec.getLsbD_ofFnLE]
  split
  · simp [show i ≠ 0 by omega, show i ≠ 1 by omega, show i ≠ 2 by omega, show i ≠ 3 by omega]
  · exact (BitVec.getLsbD_of_ge _ _ (by omega)).symm

theorem witness_IntegerResults :
    let w := l64 (reg 7) (reg 1) (reg 2)
    ∃ u, PassesL ready 0 0x001 8 encDVV w (fun s => [(opA s 0 w).dest, (opB s 0 w).source, (opC s 0 w).source]) u ∧
      okay (u.putValue 0 (opA u 0 w) 8 ⟨12, Tag.bin, none⟩) = true :=
  passes_of (by decide)

theorem witness_IntegerOverflow :
    let w := l64 (reg 7) (reg 1) (reg 3)
    ∃ u, PassesL (readyWith fun k => { k with status := 0x1A }) 0 0x001 8 encDVV w
        (fun s => [(opA s 0 w).dest, (opB s 0 w).source, (opC s 0 w).source]) u ∧
      ((u.core 0).iove && (Claims.sum false (u.value 0 (opB u 0 w) 8).w (u.value 0 (opC u 0 w) 8).w).2.1 == some true) = true :=
  passes_of (by decide)

theorem witness_NegOverflow :
    let w := l64 (reg 7) (reg 8) 0
    ∃ u, PassesL (readyWith fun k => { k.setG 8 0x8000000000000000 0 with status := 0x1A }) 0 0x005 8 encDV w
        (fun s => [(opA s 0 w).dest, (opB s 0 w).source]) u ∧
      ((u.core 0).iove && (Claims.difference false 0 (u.value 0 (opB u 0 w) 8).w).2.1 == some true) = true :=
  passes_of (by decide)

theorem witness_OtherIntegerResults :
    let w := l64 (reg 7) (reg 1) 0
    ∃ u, PassesL ready 0 0x00C 8 encDV w (fun s => [(opA s 0 w).dest, (opB s 0 w).source]) u ∧
      okay (u.putValue 0 (opA u 0 w) 8 ⟨12, Tag.bin, none⟩) = true :=
  passes_of (by decide)

theorem witness_Compare :
    let w := l64 (reg 1) (reg 2) 0
    ∃ u, PassesL ready 0 0x006 8 encVV w (fun s => [(opA s 0 w).source, (opB s 0 w).source]) u ∧ true = true :=
  passes_of (by decide)

theorem witness_AddImmediate :
    let w := plainL (regSpec 1) (regSpec 1) 0
    ∃ u, PassesL ready 0 0x401 2 encDV w (fun s => [(opA s 0 w).dest, (opB s 0 w).source]) u ∧
      ((Claims.sum false ((u.core 0).getG 1).val (BitVec.signExtend 64 (0xFF#8))).2.1 == some false) = true :=
  passes_of (by decide)

theorem witness_Move :
    let w := l64 (mem 3) (reg 1) 0
    ∃ u, PassesL ready 0 0x000 8 encDV w (moveUses 0 w) u ∧ okay (u.putValue 0 (opA u 0 w) 8 (u.value 0 (opB u 0 w) 8)) = true :=
  passes_of (by decide)

theorem witness_ShortStore :
    let w := plainL (shortSpec 0 0) (regSpec 1) 0
    ∃ u, PassesL ready 0 0x000 2 encDV w (moveUses 0 w) u ∧ okay (u.putValue 0 (opA u 0 w) 8 (u.value 0 (opB u 0 w) 8)) = true :=
  passes_of (by decide)

theorem witness_MoveImmediate : ∃ u, PassesL ready 0 0x400 2 encD (plainL (regSpec 15) 0 0) (fun _ => []) u ∧ true = true :=
  passes_of (by decide)

theorem witness_Load :
    let w := l64 (reg 7) (mem 1) 0
    let src (s : State) := s.resolve 0 1 w.sb 1
    ∃ u, PassesL (readyMem [] [(0x400, 0)]) 0 0x030 8 encLoad w (fun s => [(opA s 0 w).use false true 8 .move (storeTag (s.value 0 (src s) 1).tag),
        (src s).use true false 1 .move Tag.bin]) u ∧
      (okay (u.putValue 0 (opA u 0 w) 8 ⟨0, Tag.bin, none⟩) && decide ((src u).place = .mem (at_ 0x2000) 0x2000)) = true :=
  passes_of (by decide)

theorem witness_NarrowStore :
    let w := l64 (mem 3) (reg 1) 0
    let dst (s : State) := s.resolve 0 0 w.sa 4
    ∃ u, PassesL ready 0 0x03A 8 encStore w (fun s => [(dst s).use false true 4 .move (storeTag (s.value 0 (opB s 0 w) 8).tag),
        (opB s 0 w).use true false 8 .move Tag.bin]) u ∧
      okay (u.putValue 0 (dst u) 4 (u.value 0 (opB u 0 w) 8)) = true :=
  passes_of (by decide)

theorem witness_Divide :
    let w := l64 (reg 7) (reg 1) (reg 2)
    ∃ u, PassesL ready 0 0x020 8 encDVV w (divUses 0 w) u ∧ (((u.modCore 0 Core.landProduct).value 0 (opC u 0 w) 8).w != 0) = true :=
  passes_of (by decide)

theorem witness_DivideByZero :
    let w := l64 (reg 7) (reg 1) (reg 0)
    ∃ u, PassesL ready 0 0x020 8 encDVV w (divUses 0 w) u ∧ (((u.modCore 0 Core.landProduct).value 0 (opC u 0 w) 8).w == 0) = true :=
  passes_of (by decide)

theorem witness_DivideOverflow :
    let w := l64 (reg 7) (reg 8) (reg 9)
    ∃ u, PassesL (readyWith fun k => { (k.setG 8 0x8000000000000000 0).setG 9 0xFFFFFFFFFFFFFFFF 0 with status := 0x1A }) 0 0x020 8 encDVV w
        (divUses 0 w) u ∧ ((u.core 0).iove && (u.value 0 (opC u 0 w) 8).w == 0xFFFFFFFFFFFFFFFF) = true :=
  passes_of (by decide)

theorem witness_Multiplier :
    ∃ u, PassesL ready 0 0x01A 2 encNone (formTwo (.s16 0 0)) (fun _ => []) u ∧ true = true :=
  passes_of (by decide)

/-! ## Witnesses: special registers and control -/

theorem witness_Mfs :
    let w := l64 (reg 7) (imm 4) 0
    ∃ u, PassesL ready 0 0x040 8 { a := .d, b := .i, c := .unused, range := fun _ => if specialNumber (specNum w.sb) then none else some (1, 6) } w
        (fun s => [(opA s 0 w).dest]) u ∧ okay (u.putValue 0 (opA u 0 w) 8 ⟨0, Tag.bin, none⟩) = true :=
  passes_of (by decide)

/-- A write that goes through, one out of range, one that waits, and one that clears CORECFG.DET. -/
theorem witness_Mts :
    let e (w : L64) : Enc := { a := .i, b := .vi, c := .unused, range := fun _ => if specialNumber (specNum w.sa) then none else some (0, 6) }
    let run (w : L64) (n : Nat) (q : State → Bool) : Prop :=
      ∃ u, Passes ready 0 0x041 8 w ((e w).bad w) (guardOf w) (mtsCheck 0 w n) (fun s => [(opB s 0 w).source]) u ∧ q u = true
    run (l64 (imm 6) (reg 1) 0) 6 (fun u => !specialRange 6 (u.value 0 (opB u 0 (l64 (imm 6) (reg 1) 0)) 8).w) ∧
    run (l64 (imm 2) (imm 5) 0) 2 (fun u => specialRange 2 (u.value 0 (opB u 0 (l64 (imm 2) (imm 5) 0)) 8).w) ∧
    run (l64 (imm 15) (reg 1) 0) 15 (fun u => !specialRange 15 (u.value 0 (opB u 0 (l64 (imm 15) (reg 1) 0)) 8).w
      && !(u.core 0).corecfg.getLsbD 0 && !(u.core 0).detSlot) ∧
    ∃ u, Passes (readyWith fun k => { k with corecfg := 0x1F }) 0 0x041 8 (l64 (imm 15) (reg 0) 0) ((e (l64 (imm 15) (reg 0) 0)).bad (l64 (imm 15) (reg 0) 0))
        (guardOf (l64 (imm 15) (reg 0) 0)) (mtsCheck 0 (l64 (imm 15) (reg 0) 0) 15) (fun s => [(opB s 0 (l64 (imm 15) (reg 0) 0)).source]) u ∧
      ((u.core 0).corecfg.getLsbD 0 && !(u.value 0 (opB u 0 (l64 (imm 15) (reg 0) 0)) 8).w.getLsbD 0) = true :=
  ⟨passes_of (by decide), passes_of (by decide), passes_of (by decide), passes_of (by decide)⟩

theorem witness_Branch :
    ∃ u, Passes ready 0 0x2C0 8 ⟨1, false, 0, 8, 0⟩ (encBranch.bad ⟨1, false, 0, 8, 0⟩) (fun _ => true) (fun _ => none) (fun _ => []) u ∧
      ((u.core 0).getP 1 != false) = true :=
  passes_of (by decide)

theorem witness_Jump :
    let w := l64 (reg 15) 0 0
    ∃ u, Passes ready 0 0x2C2 8 w (({ a := .c, b := .unused, c := .raw, zero := branchZero, transfer := true } : Enc).bad w) (fun _ => true)
      (fun s => if guardOf w (s.core 0) then jumpFault ((s.core 0).getC (specReg w.sa)) else none) (fun _ => []) u ∧ true = true :=
  passes_of (by decide)

theorem witness_ShortBranch :
    ∃ u, Passes ready 0 0x403 2 (plainL 0 0 0) (fun slot => if slot then some (3, 4, 5) else none) (fun _ => true) (fun _ => none) (fun _ => []) u ∧
      ((u.core 0).getP 1) = true :=
  passes_of (by decide)

/-- An instruction in sequence, and one in a delay slot. -/
theorem witness_Sequence :
    ((ready.fetched 0 8).core 0).delay = none ∧
      (((readyWith fun k => { k with delay := some ⟨none, false, false, 0⟩ }).fetched 0 8).core 0).delay = some ⟨none, false, false, 0⟩ := by
  decide

theorem witness_Predicates :
    let w := l64 (0b000#3 ++ 3#4 ++ 2#9) (reg 1) (reg 2)
    ∃ u, PassesL ready 0 0x2C8 8 { a := .pf, b := .vi, c := .vi, zero := fun _ => 2 / 16 == 0, zeroIn := 0, range := fun _ => if 6 ≤ 2 % 8 then some (0, 0xA) else none } w
      (fun s => [(opB s 0 w).source, (opC s 0 w).source]) u ∧ true = true :=
  passes_of (by decide)

theorem witness_ShortPcmp :
    let w := plainL 0 (regSpec 1) 0
    ∃ u, Passes ready 0 0x402 2 w (fun _ => none) (fun _ => true) (fun s => s.accessFault 0 [(opB s 0 w).source]) (fun s => [(opB s 0 w).source]) u ∧
      true = true :=
  passes_of (by decide)

theorem witness_PredicateLogic :
    (∃ u, PassesL ready 0 0x2C9 8 { a := .pf, b := .p, c := .p, zero := fun _ => 0xF / 16 == 0, zeroIn := 0 } (l64 (0#3 ++ 3#4 ++ 0xF#9) (reg 1) (reg 2))
      (fun _ => []) u ∧ true = true) ∧
    (∃ u, PassesL ready 0 0x2CA 8 { a := .pf, b := .unused, c := .unused, zero := fun _ => 0x1F / 32 == 0, zeroIn := 0 } (l64 (0#3 ++ 3#4 ++ 0x1F#9) 0 0)
      (fun _ => []) u ∧ true = true) ∧
    ∃ u, PassesL ready 0 0x2F8 8 encNone (l64 0 0 0) (fun _ => []) u ∧ true = true :=
  ⟨passes_of (by decide), passes_of (by decide), passes_of (by decide)⟩

theorem witness_Unassigned :
    let l := ready.modCore 0 Core.landFp
    ready.canIssue 0 = true ∧ (ready.core 0).held = none ∧ (ready.core 0).raising = false ∧ ((l.core 0).delay.map (·.annul)).getD false = false ∧ (l.core 0).debugFault = none ∧
      l.fetchFault 0 8 = none := by
  decide

theorem witness_Trap :
    let w := l64 (imm 31) 0 0
    ∃ u, PassesL ready 0 0x2C5 8 { a := .i, b := .unused, c := .unused, transfer := true, range := fun _ => if 0 ≤ specNum w.sa ∧ specNum w.sa ≤ 31 then none else some (0, 0xA) } w (fun _ => []) u ∧
      true = true :=
  passes_of (by decide)

theorem witness_ExceptionEntry : core0.depth.val < 3 ∧ core0.delay = none ∧ ({ core0 with depth := 3 } : Core).depth.val = 3 := by decide

/-- `RETX` straight after an exception taken at depth 0 by a core at 0x800, whose vector lies where the code stands. -/
theorem witness_Return :
    let k : Core := { core0 with hpcc := { codeCap with cursor := 0 } }
    let e : ExcOperand := ⟨63, 0, 3, 0⟩
    let s : State := { (State.reset.setCore 0 (k.takeExc e 0)) with mem := ⟨[], [(0xFC, 8), (0xFD, 8)]⟩ }
    (∃ u, PassesL s 0 0x2C4 8 { a := .unused, b := .unused, c := .unused, transfer := true } (l64 0 0 0) (fun _ => []) u ∧
      decide (u.core 0 = k.takeExc e 0) = true) ∧
    k.depth.val < 3 ∧ k.delay = none ∧ targetCause k.pcc = none ∧ k.status.getLsbD 6 = false ∧
      k.status.getLsbD 8 = k.corecfg.getLsbD 0 ∧ k.pcc.cursor.getLsbD 0 = false :=
  ⟨passes_of (by decide), by decide⟩

/-- `RETX` at depth 0, and at depth 1 with an invalid S_PCC. -/
theorem witness_ReturnFaults :
    (∃ u, PassesL ready 0 0x2C4 8 { a := .unused, b := .unused, c := .unused, transfer := true } (l64 0 0 0) (fun _ => []) u ∧
      decide ((u.core 0).depth = 0) = true) ∧
    ∃ u, PassesL (readyWith fun k => { k with depth := 1 }) 0 0x2C4 8 { a := .unused, b := .unused, c := .unused, transfer := true } (l64 0 0 0)
        (fun _ => []) u ∧
      (let k := u.core 0
       decide (k.depth ≠ 0 ∧ k.shadows[k.depth].skip ≠ 3 ∧ targetCause k.shadows[k.depth].target = some 1)) = true :=
  ⟨passes_of (by decide), passes_of (by decide)⟩

/-- A core whose C15 has no SYS. -/
def plainCore (k : Core) : Core := k.setC 15 { allCap with high := allCap.high &&& 0xFBFFFFFFFFFFFFFF }

/-- MTS of CAUSE, and of STATUS where IE would change, and CMTS, without SYS. -/
theorem witness_SpecialRegisterAuthority :
    let s := readyWith plainCore
    let e (w : L64) : Enc := { a := .i, b := .vi, c := .unused, range := fun _ => if specialNumber (specNum w.sa) then none else some (0, 6) }
    (∀ n ∈ ([9, 0] : List (BitVec 9)), let w := l64 (imm n) (reg 1) 0
      Claims.Reaches s 0 0x041 8 w ((e w).bad w) ∧ (s.fetched 0 8).rank6 0 [(opB (s.fetched 0 8) 0 w).source] = none) ∧
    Claims.Reaches s 0 0x291 8 (l64 (imm 11) (reg 1) 0) (({ a := .i, b := .c, c := .unused } : Enc).bad (l64 (imm 11) (reg 1) 0)) ∧
    ¬ Claims.HasSys ((s.fetched 0 8).core 0) ∧
      (5#64).getLsbD 0 ≠ ((s.fetched 0 8).core 0).status.getLsbD 0 := by
  unfold Claims.Reaches Claims.HasSys
  decide

theorem witness_EntryFromADelaySlot :
    core0.depth.val < 3 ∧ ({ core0 with delay := some ⟨some codeCap, false, false, 0⟩ } : Core).delay = some ⟨some codeCap, false, false, 0⟩ := by
  decide

/-- A shadow bank whose context and whose slot's target are both code. -/
def shadowed (skip : BitVec 2) (status : Word) : Shadow := { Shadow.zero with pcc := codeCap, tpcc := codeCap, skip := skip, status := status }

/-- RETX at depth 1 into a slot, past an instruction of 2 and of 8 bytes, and past one in a slot; and a slot re-executed before a target that
may and one that may not be fetched from. -/
theorem witness_ReturnIntoAndPastASlot :
    let run (skip : BitVec 2) (status : Word) : Prop :=
      ∃ u, PassesL (readyWith fun k => { k with depth := 1, shadows := Vector.replicate 4 (shadowed skip status) }) 0 0x2C4 8
          { a := .unused, b := .unused, c := .unused, transfer := true } (l64 0 0 0) (fun _ => []) u ∧
        (decide ((u.core 0).depth = 1) && decide ((u.core 0).shadows[(u.core 0).depth].skip = skip)) = true
    run 0 0x40 ∧ run 1 0 ∧ run 2 0 ∧ run 2 0x40 ∧
    targetCause codeCap.even = none ∧ targetCause (codeCap.withCursor 0x1002).even = none ∧ targetCause (codeCap.withCursor 0x1008).even = none ∧
    targetCause Cap.null = some 1 :=
  ⟨passes_of (by decide), passes_of (by decide), passes_of (by decide), passes_of (by decide), by decide, by decide, by decide, by decide⟩

/-- A core that waits for its deterministic slot. -/
theorem witness_DetSlot : ((readyWith fun k => { k with wait := some .detSlot }).core 0).wait = some .detSlot := by decide

/-! ## Witnesses: capabilities, tags and atomics -/

/-- Memory with words tagged BIN at C1, C2, C3 and C4 and a capability in the pair at 0x2010. -/
def tagged : State :=
  readyMem [] [(0x400, 0), (0x401, 0), (0x402, 6), (0x403, 7), (0x600, 0), (0x601, 0), (0x10000, 0), (0x2000000000, 0)]

/-- The same with C5 at 15, C6 sealed with type 15 and C7 at the pair. -/
def sealedCap : State :=
  tagged.modCore 0 fun k => ((k.setC 5 (at_ 15)).setC 6 { at_ 0x2000 with high := setField allCap.high 48 4 15 }).setC 7 (at_ 0x2010)

theorem witness_CapabilityReads :
    let w := l64 (reg 7) (reg 1) 0
    ∃ u, PassesL ready 0 0x285 8 { a := .d, b := .c, c := .unused } w (fun s => [(opA s 0 w).dest]) u ∧
      (okay (u.putValue 0 (opA u 0 w) 8 ⟨((u.core 0).getC (specReg w.sb)).cursor.toNat, Tag.bin, none⟩)
        && okay (u.putValue 0 (opA u 0 w) 8 ⟨(BitVec.ofInt 64 ((u.core 0).getC (specReg w.sb)).top).toNat, Tag.bin, none⟩)) = true :=
  passes_of (by decide)

theorem witness_CapabilityMoves :
    (∃ u, PassesL ready 0 0x292 8 { a := .p, b := .c, c := .c } (l64 (reg 1) (reg 1) (reg 15)) (fun _ => []) u ∧ true = true) ∧
    (∃ u, PassesL ready 0 0x282 8 { a := .c, b := .c, c := .unused, cdest := true } (l64 (reg 5) (reg 15) 0) (fun _ => []) u ∧ true = true) ∧
    (∃ u, PassesL ready 0 0x290 8 { a := .c, b := .i, c := .unused, cdest := true, range := fun _ => if specNum (imm 19) = 11 ∨ specNum (imm 19) = 12 ∨ specNum (imm 19) = 19 then none
                                else some (1, 6) } (l64 (reg 5) (imm 19) 0) (fun _ => []) u ∧ true = true) ∧
    ∃ u, Passes ready 0 0x291 8 (l64 (imm 11) (reg 1) 0)
        (({ a := .i, b := .c, c := .unused, range := fun _ => if specNum (imm 11) = 11 ∨ specNum (imm 11) = 12 then none else some (0, 6) } :
          Enc).bad (l64 (imm 11) (reg 1) 0))
        (guardOf (l64 (imm 11) (reg 1) 0)) (fun s => if (s.core 0).sys then none else some ⟨6, 5, 3, 0⟩) (fun _ => []) u ∧ true = true :=
  ⟨passes_of (by decide), passes_of (by decide), passes_of (by decide), passes_of (by decide)⟩

/-- Every derivation allowed with the integer 4; the bounds refused with the greatest length; a key above 15. -/
theorem witness_CapabilityDerivations :
    let run (n : Nat) (w : L64) (q : Option Cap → Bool) : Bool := (Claims.derivations.drop n).all fun e =>
      passesLB ready 0 e.2.1 8 { a := .c, b := .c, c := .vi, cdest := true } w
        (fun s => [authUse 1 (capOf s 0 w.sb) false, (opC s 0 w).source])
        fun u => q (e.2.2 ((u.core 0).getC (specReg w.sb)) (u.value 0 (opC u 0 w) 8).w)
    run 0 (l64 (reg 5) (reg 1) (imm 4)) (·.isSome) = true ∧ run 5 (l64 (reg 5) (reg 1) (imm 15)) (·.isSome) = true ∧
      run 5 (l64 (reg 5) (reg 1) (imm 16)) (·.isNone) = true ∧
      ((Claims.derivations.drop 2).take 2).all (fun e => (e.2.2 (at_ 0x2000) 0x7FFFFFFFFFFFFFFF).isNone) = true := by
  decide

theorem witness_DerivationsAreMonotone : ∀ e ∈ Claims.derivations, (e.2.2 (at_ 0x2000) 4).any (·.valid) = true := by decide

/-- CNARROW within the bounds and past them. -/
theorem witness_Narrow :
    let run (w : L64) (q : Cap → Nat → Bool) : Prop :=
      ∃ u, PassesL ready 0 0x28B 8 { a := .c, b := .c, c := .g, cdest := true } w
          (fun s => [authUse 1 (capOf s 0 w.sb) false, { n := 2, regs := [(specReg w.sc, .bin)] }]) u ∧
        q ((u.core 0).getC (specReg w.sb)) ((u.core 0).getG (specReg w.sc)).val.toNat = true
    run (l64 (reg 5) (reg 1) (reg 5)) (fun k n => decide (k.base ≤ k.cursor.toNat ∧ (k.cursor.toNat + n : Int) ≤ k.top)) ∧
    run (l64 (reg 5) (reg 1) (reg 3)) (fun k n => decide ¬ (k.base ≤ k.cursor.toNat ∧ (k.cursor.toNat + n : Int) ≤ k.top)) :=
  ⟨passes_of (by decide), passes_of (by decide)⟩

/-- CSEAL with type 15 and CUNSEAL of it; and both refused. -/
theorem witness_SealCapability :
    let run (w : L64) (type : Bool) (q : Cap → Cap → Bool) : Prop :=
      ∃ u, PassesL sealedCap 0 0x28E 8 { a := .c, b := .c, c := .c, cdest := true } w
          (fun s => [authUse 1 (capOf s 0 w.sb) type, authUse 2 (capOf s 0 w.sc) false]) u ∧
        q ((u.core 0).getC (specReg w.sb)) ((u.core 0).getC (specReg w.sc)) = true
    let within (q : Cap) : Prop := q.has .seal = true ∧ q.base ≤ q.cursor.toNat ∧ (q.cursor.toNat : Int) < q.top
    run (l64 (reg 7) (reg 1) (reg 5)) false (fun _ q => decide (within q) && decide (q.cursor.toNat = 15)) ∧
    run (l64 (reg 7) (reg 1) (reg 2)) false (fun _ q => decide (16 ≤ q.cursor.toNat)) ∧
    run (l64 (reg 7) (reg 6) (reg 5)) true (fun k q => decide (within q) && decide (q.cursor.toNat = k.otype.toNat)) ∧
    run (l64 (reg 7) (reg 6) (reg 1)) true (fun k q => decide (q.cursor.toNat ≠ k.otype.toNat)) :=
  ⟨passes_of (by decide), passes_of (by decide), passes_of (by decide), passes_of (by decide)⟩

theorem witness_CapabilityLoad :
    let w := l64 (reg 8) (mem 7) 0
    let src (s : State) := s.resolve 0 1 w.sb 16
    ∃ u, PassesL sealedCap 0 0x280 8 { a := .c, b := .m, c := .unused, cdest := true } w (fun s =>
      [((src s).use true false 16 .cap Tag.bin).onMem fun m => { m with perms := [.lc], align := some (16, 2) }]) u ∧ true = true :=
  passes_of (by decide)

theorem witness_CapabilityStore :
    let w := l64 (mem 1) (reg 1) 0
    let dst (s : State) := s.resolve 0 0 w.sa 16
    let tags (k : Cap) : List Tag := if k.valid then [0x6, 0x7] else [0x0, 0x0]
    ∃ u, PassesL tagged 0 0x281 8 { a := .w, b := .c, c := .unused } w (fun s =>
        [((dst s).use false true 16 .move Tag.bin).onMem fun m =>
          { m with perms := [.sc], align := some (16, 2), wtags := tags (capOf s 0 w.sb) }]) u ∧
      (let k := (u.core 0).getC (specReg w.sb)
       decide ((dst u).place = .mem (at_ 0x2000) 0x2000) &&
        okay (u.writeMem 0 0 ⟨0x2000, toLe 8 k.cursor.toNat ++ toLe 8 k.high.toNat, tags k⟩ true)) = true :=
  passes_of (by decide)

theorem witness_TagInstructions :
    (let w := l64 (reg 7) (mem 1) 0
     ∃ u, PassesL tagged 0 0x298 8 { a := .d, b := .m, c := .unused } w (fun s =>
        [(opA s 0 w).dest, ((opB s 0 w).use true false 8 .tag Tag.bin).onMem fun m => { m with align := some (8, 4), plain := false }]) u ∧
      (decide ((opB u 0 w).place = .mem (at_ 0x2000) 0x2000)
        && okay (u.putValue 0 (opA u 0 w) 8 ⟨(u.tagSeen 0 0x2000).toNat, Tag.bin, none⟩)) = true) ∧
    (let w := l64 (mem 1) (imm 15) 0
     ∃ u, PassesL tagged 0 0x299 8 { a := .w, b := .i, c := .unused, range := fun _ => if decide ((0 ≤ specNum w.sb ∧ specNum w.sb ≤ 5) ∨ specNum w.sb = 14 ∨ specNum w.sb = 15)
                                then none else some (1, 0xA) } w (fun s =>
        [((opA s 0 w).use false true 8 .move (BitVec.ofInt 4 (specNum w.sb))).onMem fun m => { m with align := some (8, 4), plain := false }]) u ∧
      (decide ((opA u 0 w).place = .mem (at_ 0x2000) 0x2000) && okay (u.retag 0 0x2000 8 (BitVec.ofInt 4 (specNum w.sb)))) = true) ∧
    (let w := l64 (mem 1) (imm 16) 0
     ∃ u, Passes tagged 0 0x29A 8 w (({ a := .w, b := .vi, c := .unused } : Enc).bad w) (guardOf w) (tagcodeCheck 0 w)
        (fun s => [(opB s 0 w).source]) u ∧
      (decide ((u.resolve 0 0 w.sa 1).place = .mem (at_ 0x2000) 0x2000)
        && okay (u.retag 0 0x2000 (u.value 0 (opB u 0 w) 8).w.toNat Tag.code)) = true) :=
  ⟨passes_of (by decide), passes_of (by decide), passes_of (by decide)⟩

theorem witness_RetagOwnBank : okay (tagged.retag 0 0x2000 8 Tag.code) = true ∧ okay (tagged.retag 0 0x7FFF8 8 Tag.bin) = true := by decide

/-- TAS and BTAS, in the bank and in a window. -/
theorem witness_TestAndSet :
    ∀ r ∈ ([1, 4] : List (BitVec 4)), ∀ e ∈ ([[.own, .window, .main], [.own, .window]] : List (List Region)),
      let w := l64 (mem r) (reg 1) 0
      let a (s : State) := s.resolve 0 0 w.sa 1
      passesLB tagged 0 0x2D8 8 { a := .w, b := .p, c := .unused } w (fun s => [(a s).atomic 1 e])
        (fun u => okay ((u.drainAll 0).putValue 0 (a (u.drainAll 0)) 1 ⟨0xFF, Tag.bin, none⟩)) = true := by
  decide

theorem witness_AddAndSwap :
    let w := l64 (mem 1) (reg 1) (reg 7)
    ∃ u, PassesL tagged 0 0x2DB 8 { a := .w, b := .vi, c := .d } w
        (fun s => [(opA s 0 w).atomic 8 [.own, .window], (opB s 0 w).source, (opC s 0 w).dest]) u ∧
      (let d := u.drainAll 0
       match d.putValue 0 (opC d 0 w) 8 ⟨(d.value 0 (opA d 0 w) 8).w.toNat, Tag.bin, none⟩ with
       | .ok p => okay (p.putValue 0 (opA d 0 w) 8 ⟨5, Tag.bin, none⟩)
       | .error _ => false) = true :=
  passes_of (by decide)

theorem witness_Reserve :
    let w := l64 (reg 7) (mem 3) 0
    ∃ u, PassesL tagged 0 0x2D9 8 encLoad w (fun s => [(opA s 0 w).dest,
        ((opB s 0 w).use true false 8 .bin Tag.bin).onMem fun m => { m with atomic := some [.main], align := some (8, 3) }]) u ∧
      (let d := u.drainAll 0
       decide ((opB d 0 w).place = .mem (at_ 0x10000000000) 0x10000000000) &&
        okay (d.putValue 0 (opA d 0 w) 8 ⟨(d.value 0 (opB d 0 w) 8).w.toNat, Tag.bin, none⟩)) = true :=
  passes_of (by decide)

/-- STCN with and without its reservation. -/
theorem witness_StoreConditional :
    ∀ r ∈ ([some 0x10000000000, none] : List (Option Nat)),
      let w := l64 (mem 3) (reg 1) (reg 1)
      passesLB (tagged.modCore 0 fun k => { k with resv := r }) 0 0x2DA 8 { a := .w, b := .vi, c := .p } w (fun s =>
          [((opA s 0 w).use false true 8 .bin Tag.bin).onMem fun m =>
            { m with atomic := some [.main], align := some (8, 3), keyed := s.reserved 0 w }, (opB s 0 w).source])
        (fun u => decide ((opA u 0 w).place = .mem (at_ 0x10000000000) 0x10000000000) && decide ((u.core 0).resv = r)
          && okay ((u.drainAll 0).putValue 0 (opA u 0 w) 8 ⟨5, Tag.bin, none⟩)) = true := by
  decide

/-! ## Witnesses: the journal, slots and signals -/

/-- Segment 1 of core 0. -/
def seg (st : SegState) (req out : Option Bool) : Segment := ⟨1, 0, 0, 7, 0, st, req, false, [], 0, out⟩

/-- A claim of segment n on the first line of main memory. -/
def claim (n : Nat) : Claim := ⟨mainBase, n, List.replicate 64 0x5A, List.replicate 8 2, 0⟩

/-- Segments, claims and requests in Yard A; the segment that core 0 names is number 1, and the first page is journaled. -/
def withSegs (gs : List Segment) (cl : List Claim) (rq : List ClaimReq) : State :=
  { readyWith fun k => { k with jopen := true, segno := 1, subOpc := 1 } with
    segments := gs
    yardA := { YardState.reset with claims := cl, claimReqs := rq }
    mem := ⟨[(0x011FFE000000, 0x80)], [(0x200, 8), (0x201, 8)]⟩ }

/-- One record of a ring, and a ring that holds it. -/
def rec1 : RingRec := ⟨0, 0, 2, 1, 0, 7, true, true, false, true, none⟩

def withRing (r : Ring) (d : StreamDesc) : State := { ready with yardA := { YardState.reset with ring := r, stream := d } }

theorem witness_SegmentOpen :
    ∀ s ∈ ([ready, readyWith fun k => { k with jopen := true }, readyWith fun k => { k with subOpc := 3 }] : List State),
      passesLB s 0 0x2E0 8 encNone (l64 0 0 0) (fun _ => []) (fun u => decide ((u.core 0).jopen = (s.core 0).jopen)) = true := by
  decide

/-- Each clause of SEAL and SEALA: no segment, one that accepts writes, one that waits, and both outcomes. -/
theorem witness_SealInstructions :
    ∀ p ∈ ([([], fun g => g.isNone), ([seg .writing none none], fun g => g.any (·.state == .writing)),
        ([seg .handed none none], fun g => g.any fun g => g.state != .writing && g.outcome == none),
        ([seg .handed none (some true)], fun g => g.any fun g => g.state != .writing && g.outcome == some true),
        ([seg .handed none (some false)], fun g => g.any fun g => g.state != .writing && g.outcome == some false)] :
        List (List Segment × (Option Segment → Bool))),
      (passesLB (withSegs p.1 [] []) 0 0x2E1 8 { a := .p, b := .unused, c := .unused } (l64 (reg 1) 0 0) (fun _ => [])
          (fun u => p.2 (u.coreSegment 0))
        && passesLB (withSegs p.1 [] []) 0 0x2E2 8 encNone (l64 0 0 0) (fun _ => []) (fun u => p.2 (u.coreSegment 0))) = true := by
  decide

/-- The steward with a segment of its own, number 1, and its session. -/
def stewardSegs (gs : List Segment) (o : StewardSession → StewardSession) : State :=
  { State.reset with
    segments := gs.map fun g => { g with core := 0x60 }
    steward := { Steward.reset with own := o { Steward.reset.own with jopen := !gs.isEmpty, segno := 1 } } }

/-- JOPEN, SEAL, SEALA and JDROP of the steward: no segment, one open, one that accepts writes, one past its seal point with its outcome,
and a submission that may not write. -/
theorem witness_StewardSegments :
    (stewardSegs [] id).steward.own.jopen = false ∧ (stewardSegs [] id).steward.own.subOpc ≠ 3 ∧
      (stewardSegs [seg .writing none none] id).steward.own.jopen = true ∧
      (stewardSegs [] fun o => { o with subOpc := 3 }).steward.own.subOpc = 3 ∧
      (stewardSegs [seg .writing none none] id).stewardSegment = some { seg .writing none none with core := 0x60 } ∧
      (stewardSegs [seg .handed none (some true)] id).stewardSegment = some { seg .handed none (some true) with core := 0x60 } ∧
      (stewardSegs [seg .writing none none] id).writingOf 96 = some { seg .writing none none with core := 0x60 } ∧
      96 ≤ (0x60 : BitVec 8).toNat ∧
      ∀ gs ∈ ([[], [seg .writing none none], [seg .handed none (some true)]] : List (List Segment)), Claims.Serves (stewardSegs gs id) := by
  unfold Claims.Serves
  decide

theorem witness_SegmentDrop :
    ∀ p ∈ ([([], fun g => g.isNone), ([seg .writing none none], fun g => g.any fun g => g.core.toNat == 0)] :
        List (List Segment × (Option Segment → Bool))),
      passesLB (withSegs p.1 [claim 1] []) 0 0x2E3 8 encNone (l64 0 0 0) (fun _ => []) (fun u => p.2 (u.writingSegment 0)) = true := by
  decide

theorem witness_ClaimRequest :
    let s := withSegs [seg .writing none none] [] []
    s.writingOf 0 = some (seg .writing none none) ∧ s.unclaimed 1 (lineAddr 0) 64 ≠ [] ∧
      (s.yard (yardOf (lineAddr 0))).claimCount 1 < 1024 ∧ (ownerOf 0 = 0 ∧ (s.core 0).held = none) := by
  decide

/-- All 1,024 slots of a segment taken in Yard A, the line asked for not among them. -/
theorem witness_ClaimLimit :
    let k : YardState := { YardState.reset with claims := List.replicate 1024 { claim 1 with line := mainBase + 64 } }
    k.claimCount 1 = 1024 ∧ k.asked 1 mainBase = false ∧ k.claimOn mainBase = none := by
  refine ⟨?_, rfl, ?_⟩
  · rw [YardState.claimCount, List.filter_replicate_of_pos (by decide), List.length_replicate]
    rfl
  · exact List.find?_replicate_of_neg (by decide)

theorem witness_ClaimGrant :
    let s := withSegs [seg .writing none none] [] [⟨mainBase, 1, 0, 0⟩]
    s.claimReq 0 (lineAddr 0) = some ⟨mainBase, 1, 0, 0⟩ ∧ (s.yard (yardOf (lineAddr 0))).claimOn (lineAddr 0) = none ∧
      s.lostAt (attrAddr (pageOf (lineAddr 0))) = false := by
  decide

theorem witness_ClaimTimeout :
    let g : Segment := { seg .writing none none with segno := 2, core := 1 }
    let s := withSegs [seg .writing none none, g] [claim 2] [⟨mainBase, 1, 0, 0⟩]
    s.claimReq 0 (lineAddr 0) = some ⟨mainBase, 1, 0, 0⟩ ∧ (s.yard (yardOf (lineAddr 0))).claimOn (lineAddr 0) = some (claim 2) ∧
      s.segment (max 1 2) = some g ∧ g.state = .writing ∧ g.core.toNat = 1 := by
  decide

/-- The claiming segment the younger: its core waits, or has gone on. -/
theorem witness_ClaimTimeoutYounger :
    let g : Segment := { seg .writing none none with segno := 2, core := 1 }
    let s := withSegs [seg .writing none none, g] [claim 1] [⟨mainBase, 2, 1, 0⟩]
    let v := s.modCore 1 fun k => { k with run := .running, held := some ⟨0x000, 8, l64 0 0 0, none⟩ }
    s.claimReq 1 (lineAddr 0) = some ⟨mainBase, 2, 1, 0⟩ ∧ (s.yard (yardOf (lineAddr 0))).claimOn (lineAddr 0) = some (claim 1) ∧
      (claim 1).segno < 2 ∧ s.segment (max 2 1) = some g ∧ (1 : Owner) = ownerOf 1 ∧ (s.core 1).held = none ∧
      (v.core 1).held = some ⟨0x000, 8, l64 0 0 0, none⟩ ∧ (v.core 1).run = .running ∧ (v.core 1).paddockDue = false ∧
      v.claimReq 1 (lineAddr 0) = some ⟨mainBase, 2, 1, 0⟩ := by
  decide

theorem witness_RollbackFreesClaims :
    ∀ st ∈ ([.writing, .sealed] : List SegState), let s := withSegs [seg st none none] [] []
      s.segment 1 = some (seg st none none) ∧ (s.core 0).run = .running ∧ (s.core 0).paddockDue = false ∧ (s.core 0).segno = 1 := by
  decide

theorem witness_RollbackRestoresTheLine :
    let g := seg .writing none none
    let s := withSegs [g] [claim 1] []
    s.segment g.segno = some g ∧ (s.core 0).sbuf = [] ∧ (s.core 0).paddockDue = false ∧ (s.core 0).run = .running ∧
      lineAddr (0 : LineId).toNat = (claim 1).line ∧ (claim 1).line % 64 = 0 ∧ mainBase ≤ (claim 1).line ∧
      (claim 1).undo.length = 64 ∧ (claim 1).undoTags.length = 8 ∧ s.lostAt (claim 1).line = false ∧
      (s.yard (yardOf (claim 1).line)).claims.filter (·.segno == g.segno) = [claim 1] ∧ yardOf (claim 1).line = .a ∧
      (s.yard .b).claims.filter (·.segno == g.segno) = [] := by
  decide

theorem witness_SealPoint :
    let s := withSegs [seg .writing (some false) none] [] []
    s.writingOf 0 = some (seg .writing (some false) none) ∧ s.canIssue 0 = true ∧ (s.core 0).paddockDue = false ∧
      (stewardSegs [seg .writing (some true) none] id).writingOf 96 = some { seg .writing (some true) none with core := 0x60 } := by
  decide

theorem witness_Handover :
    let s := { withSegs [seg .sealed none none] [] [] with
      yardA := { YardState.reset with ring := { Ring.empty with recs := [{ rec1 with written := false }] } } }
    s.segment 1 = some (seg .sealed none none) ∧
      (s.yard (homeOf 0)).ring.recs.find? (fun e => e.mine && e.rseq == 0) = some { rec1 with written := false } := by
  decide

/-- Both marks: one byte short of the low mark, and at the high mark. -/
theorem witness_RingMarks :
    (withRing { Ring.empty with reserved := 1073741824 - 0x1FFFFFF } .off).ringFree .a < 0x2000000 ∧
      (withRing { Ring.empty with reserved := 1073741824 - 0x4000000, hold := true } .off).ringFree .a = 0x4000000 := by
  decide

/-- A record that fits its host ring exactly. -/
theorem witness_StreamCopy :
    let s := withRing { Ring.empty with recs := [rec1] } ⟨0, 9, 1, 0, 0, 0⟩
    let d := (s.yard .a).stream
    (s.yard .a).ring.recs.find? (fun e => d.covers e && e.streamEnd.isNone) = some rec1 ∧ rec1.settled = true ∧
      d.prod + 256 * rec1.nlines = d.cons + 2 ^ d.log2sz.toNat := by
  decide

/-- CONS at PROD, and one past it. -/
theorem witness_Cons :
    let s := withRing .empty ⟨0, 12, 1, 512, 256, 0⟩
    s.pcieUp = true ∧ (s.yard .a).stream.cons ≤ 512 ∧ 512 ≤ (s.yard .a).stream.prod ∧ (s.yard .a).stream.prod < 513 := by
  decide

/-- A request of session 0 in a phase. -/
def request (id : Nat) (phase : ReqPhase) : Request where
  id := id
  sq := some 0
  sidx := 0
  rid := 7
  entry := 1 :: List.replicate 127 0
  deadline := 0xFFFFFFFFFFFFFFFF
  phase := phase
  order := id
  runs := 1
  losses := 0
  dup := false
  attached := []
  runSegs := 0
  segs := 0
  acked := 0
  local_ := 0
  pennant := none
  csum := []
  appstat := 0

/-- Requests, on a core whose C1 is at its first slot. -/
def withRequests (l : List Request) : State :=
  { readyWith (fun k => k.setC 1 (at_ 0x4000)) with
    requests := l, mem := ⟨[], [(0x200, 8), (0x201, 8)] ++ (List.range 16).map fun i => (0x800 + i, 0)⟩ }

/-- WAITD with and without an offer. -/
theorem witness_DescriptorTaken :
    (∀ l ∈ ([[], [request 3 (.offered 0 31), request 2 (.offered 0 4)]] : List (List Request)),
      passesLB (withRequests l) 0 0x2E8 8 encD (l64 (reg 7) 0 0) (fun s => [(opA s 0 (l64 (reg 7) 0 0)).dest]) (fun u =>
        let d := u.drainAll 0
        decide ((d.oldestOffer 0).isSome = !l.isEmpty) && okay (d.putValue 0 (opA d 0 (l64 (reg 7) 0 0)) 8 ⟨0x4000, Tag.bin, none⟩)) = true) ∧
    (withRequests [request 3 (.offered 96 31), request 2 (.offered 96 4)]).oldestOffer 96 = some (request 2 (.offered 96 4), 4) := by
  decide

/-- POST with no taken request at the address, with one that still writes, and with one that may go. -/
theorem witness_RequestPosted :
    (∀ p ∈ ([([], [], false), ([request 1 (.taken 0 0)], [{ seg .writing none none with rid := 7 }], true),
        ([request 1 (.taken 0 0)], [], false)] : List (List Request × List Segment × Bool)),
      let w := l64 (mem 1) 0 0
      let dst (s : State) := s.resolve 0 0 w.sa 128
      passesLB { withRequests p.1 with segments := p.2.1 } 0 0x2E9 8 { a := .m, b := .unused, c := .unused } w
        (fun s => [(dst s).use true false 128 .move Tag.bin])
        (fun u => decide ((dst u).place = .mem (at_ 0x4000) 0x4000) && decide (u.takenAt 0 0x4000 0x4000 = p.1.head?)
          && p.1.all fun r => u.writesFor 0 r == p.2.2) = true) ∧
    (withRequests [request 1 (.taken 96 31)]).takenAt 96 0 (128 * 31) = some (request 1 (.taken 96 31)) := by
  decide

/-- SIGNAL of no core, of one in paddock, of one whose queue is full and of one with room for one more. -/
theorem witness_PeerSignal :
    ∀ p ∈ ([(96, fun _ => true), (7, fun u => u.run == .paddock), (8, fun u => u.run != .paddock && u.peers.length == 4),
        (9, fun u => u.run != .paddock && u.peers.length == 3)] : List (Nat × (Core → Bool))),
      let w := l64 (imm (BitVec.ofNat 9 p.1)) (reg 1) 0
      let s := (((ready.modCore 7 fun k => { k with run := .paddock }).modCore 8 fun k => { k with peers := List.replicate 4 (0, 0) }).modCore 9
        fun k => { k with peers := List.replicate 3 (0, 0) })
      passesLB s 0 0x2F0 8 encVV w (fun s => [(opA s 0 w).source, (opB s 0 w).source])
        (fun u => decide ((u.value 0 (opA u 0 w) 8).w.toNat = p.1) && p.2 (u.core (Fin.ofNat 96 p.1))) = true := by
  decide

/-! ## Witnesses: interrupts, stops, caches and banks -/

/-- Each source pending and enabled on a running core with STATUS.IE, and none. -/
theorem witness_InterruptRecognition :
    ∀ p ∈ ([(fun k => k, false), (fun k => { k with dbgHalt := true, dbgctl := 1, ien := 8 }, true),
        (fun k => { k with steward := some (2, 9) }, true), (fun k => { k with peers := [(95, 3)], ien := 4 }, true),
        (fun k => { k with tcmp := 0, ien := 1 }, true),
        (fun k => { k with tcmp := 0, ien := 1, delay := some ⟨none, false, false, 0⟩, cs := some [(0x180, 0)],
                           engine := some (Engine.start 0x180) }, true), (fun k => { k with tcmp := 0, ien := 1, delay := some ⟨none, false, false, 8⟩ }, true)] :
        List ((Core → Core) × Bool)),
      let s := readyWith fun k => p.1 { k with status := 0xB }
      let k := s.core 0
      k.run = .running ∧ k.status.getLsbD 0 = true ∧ k.depth.val ≤ 2 ∧ k.grace = false ∧ k.midPair = false ∧ (k.delay.all fun d => d.begun != 0 || k.engine.isSome) = true ∧
        (k.engine.all fun e => let w := k.engineWord e
          waitCode w != 2 && waitCode w != 0xC && (waitCode w != 0 || commitCode w == 0)) = true ∧
        (s.sheds[shedOf 0]).retained = false ∧ (Claims.pendingInterrupt s 0).isSome = p.2 := by
  decide

theorem witness_DispatchInterrupt :
    let s := { withRequests [request 1 (.offered 0 31)] with cores := (readyWith fun k => { k with status := 0xB, ien := 2 }).cores }
    Claims.pendingInterrupt s 0 = some ⟨24, 31, 3, 0⟩ := by
  decide

theorem witness_NoInterruptRecognised :
    (State.reset.core 0).run ≠ .running ∧ core0.status.getLsbD 0 = false ∧ ({ core0 with depth := 3 } : Core).depth.val = 3 ∧
      ({ core0 with grace := true } : Core).grace = true ∧ ({ core0 with midPair := true } : Core).midPair = true ∧
      ∃ d, ({ core0 with delay := some ⟨none, false, false, 0⟩ } : Core).delay = some d ∧ d.begun = 0 ∧ core0.engine = none :=
  ⟨by decide, by decide, by decide, by decide, by decide, _, rfl, rfl, rfl⟩

theorem witness_SignalsAndDetectedExceptions :
    ready.timer < (ready.core 0).tcmp ∧ ready.canIssue 0 = true ∧ (ready.core 0).engine = none ∧ (ready.core 0).depth.val < 3 ∧
      ((readyWith fun k => { k with depth := 3 }).core 0).depth.val = 3 := by
  decide

theorem witness_PaddockDump :
    let s := readyWith fun k => { k with run := .fatal ⟨3, 1, 3, 0⟩ 1 }
    (s.core 0).run = .fatal ⟨3, 1, 3, 0⟩ 1 ∧ s.openSegments 0 = [] ∧ (s.core 0).sbuf = [] := by
  decide

theorem witness_RestartEntry :
    ((readyWith fun k => { k with run := .paddock }).core 0).run = .paddock ∧
    ∀ e ∈ ([.coldStart, .restartCommand] : List RestartCause),
      let s := readyWith fun k => { k with run := .stopped }
      e ≠ .paddockRelease ∧ (s.core 0).run = .stopped ∧ (s.core 0).paddockDue = false ∧ (s.sheds[shedOf 0]).retained = false ∧
        5 ≤ s.steward.stage ∧ s.steward.warmWait = false ∧ s.openSegments 0 = [] ∧ (s.core 0).sbuf = [] := by
  decide

/-- SEALA, opcode 0x2E2, due at the PCC of core 0, and a word in its control store there. -/
def sealaWith (word : BitVec 136) : State :=
  { readyWith fun k => { k with cs := some [(0x2E2, word)] } with
    mem := ⟨[(0x1000, 0xE2), (0x1001, 0xC2)], [(0x200, 8), (0x201, 8)]⟩ }

/-- Its checks pass; its entry word fails parity, passes parity and fails form, and passes: then its routine begins. -/
theorem witness_RoutineBegins :
    Claims.Reaches (sealaWith 0) 0 0x2E2 8 (l64 0 0 0) (encNone.bad (l64 0 0 0)) ∧
    Claims.Reaches (sealaWith (withParity 1)) 0 0x2E2 8 (l64 0 0 0) (encNone.bad (l64 0 0 0)) ∧
    microCoded 0x2E2 = true ∧ ((sealaWith 0).core 0).engine = none ∧
    ((sealaWith 0).fetched 0 8).accessFault 0 [] = none ∧ parityGroups 0 0 ≠ 0 ∧ (parityGroups 1 (parityOf 1) = 0 ∧ malformedAt 1 0 = true) ∧
    (let s := (sealaWith (withParity 0)).modCore 0 fun k => { k with beginOnly := true }
     ((s.fetched 0 8).core 0).wordFails (BitVec.ofNat 13 0x2E2) 0 = false ∧ s.storedL64 0 = some (0x2E2, l64 0 0 0) ∧
       ((after (.seala (.core 0 (l64 0 0 0))) s).core 0).engine = some (Engine.start 0x2E2) ∧
       ((after (.seala (.core 0 (l64 0 0 0))) s).core 0).engineFails (Engine.start 0x2E2) = false) ∧
    (State.reset.canIssue 0 = false ∧ ready.storedL64 0 = none) := by
  unfold Claims.Reaches
  refine ⟨⟨by decide, by decide, by decide, by decide, by decide, by decide, by decide⟩, ⟨by decide, by decide, by decide, by decide, by decide,
    by decide, by decide⟩, by decide, by decide, by decide, by decide, by decide, ⟨by decide, by decide, by decide, by decide⟩, by decide⟩

/-- Words that raise, wait, and commit nothing, a unit and the whole: each passes parity and form. -/
theorem witness_EngineWords :
    ∀ p ∈ ([(0xE00000000, true, 0, 0), (0x10000000000000000000000000, false, 1, 0), (0, false, 0, 0), (0x40000000, false, 0, 1),
        (0x80000000, false, 0, 2)] : List (BitVec 128 × Bool × Nat × Nat)),
      parityGroups p.1 (parityOf p.1) = 0 ∧ malformedAt p.1 0 = false ∧ raises p.1 = p.2.1 ∧ waitCode p.1 = p.2.2.1 ∧
        commitCode p.1 = p.2.2.2 := by
  decide

/-- SMOV and JDROP held with their engine at their routine's first word. -/
theorem witness_EngineStands :
    ∀ opc ∈ ([0x180, 0x2E3] : List Nat),
      let s := readyWith fun k => { k with
        cs := some [(opc, withParity 0x80000000)], engine := some (Engine.start opc), held := some ⟨opc, 8, l64 0 0 0, none⟩ }
      s.canIssue 0 = true ∧ (s.core 0).engine = some (Engine.start opc) ∧ (s.core 0).engineFails (Engine.start opc) = false ∧
        ((s.core 0).held.map (·.opc)) = some opc := by
  decide

/-- A final word of JDROP rolls the open segment back, the engine gone. -/
theorem witness_FinalCommit :
    let s := (withSegs [seg .writing none none] [] []).modCore 0 fun k => { k with
      cs := some [(0x2E3, withParity 0x80000000)], engine := some (Engine.start 0x2E3), held := some ⟨0x2E3, 8, l64 0 0 0, none⟩ }
    ((after (.jdrop (.core 0 (l64 0 0 0))) s).core 0).engine = none ∧ (after (.jdrop (.core 0 (l64 0 0 0))) s).segments = [] := by
  decide

/-- A core whose control store holds a word of zeros that passes, and one more after it. -/
def twoWords (v : BitVec 136) : Core := { core0 with cs := some [(0x180, 0xFF00000000000000000000000000000000), (0x181, v)] }

theorem twoWords_csWord (v : BitVec 136) : (twoWords v).csWord 0x181 = v := rfl

/-- From a word of zeros that passes, the engine goes on to a word that passes, and to one that fails. -/
theorem witness_EngineGoesOn :
    ((Engine.start 0x180).stage 0 ⟨false, false, 0, none⟩).sequence 0 ⟨false, false, 0, none⟩ = Engine.start 0x181 ∧
      ∀ p ∈ ([(0, true), (0xFF00000000000000000000000000000000, false)] : List (BitVec 136 × Bool)),
        (twoWords p.1).engineFails (Engine.start 0x181) = p.2 := by
  refine ⟨by decide, fun p hp => ?_⟩
  simp only [Core.engineFails, Engine.start, show BitVec.ofNat 13 0x181 = 0x181 from rfl]
  fin_cases hp <;> decide

/-- SEQ of each code, and the counter at its end. -/
theorem witness_MicroSequence :
    (∀ n ∈ ([0, 2, 3, 4, 5, 6] : List Nat), seqCode (BitVec.ofNat 128 (n * 2 ^ 112)) = n) ∧
      ((⟨0x1FFF, [], 1, [], [], []⟩ : Engine).sequence 0 ⟨false, false, 0, none⟩).addr = 0 := by
  decide

/-- A first error, a second of one word within a second, and one longer ago, before a reload. -/
theorem witness_ControlStoreReload :
    ∀ h ∈ ([([(5, 2000000000)], 1), ([(5, 1000000000), (5, 2000000000)], 2), ([(5, 999999999), (5, 2000000000)], 1)] :
        List (List (BitVec 13 × Word) × Nat)),
      let k := (readyWith fun k => { k with run := .csError 5 1 false 2000000000, csHist := h.1 }).core 0
      k.run = .csError 5 1 false 2000000000 ∧ k.cs.isSome = true ∧
        ((k.csHist.filter fun e => decide ((2000000000 : Word).toNat ≤ e.2.toNat + 1000000000)).filter fun e => e.1 == 5).length = h.2 := by
  decide

/-- A buffered store, a shed awake, a page with a set request in an attribute table that stands. -/
theorem witness_CachesAndDirectory :
    let e : SbEntry := ⟨mainBase, [⟨mainBase, [1], [0]⟩]⟩
    ((readyWith fun k => { k with sbuf := [e] }).core 0).sbuf = [e] ∧ (ready.sheds[(0 : ShedId)]).retained = false ∧
      (ready.sheds[(0 : ShedId)]).l2State 5 = none ∧ ({ ready with refChg := [(0, true)] } : State).lostAt (attrAddr 0) = false ∧
      ({ ready with refChg := [(0, true)], yardA := { YardState.reset with mode := 3 } } : State).lostAt (attrAddr 0) = true := by
  decide

/-- A directory set whose sixteen ways are taken, and one with room; and a dirty line in an L2 that has become lost. -/
theorem witness_DirectoryReplaces :
    (let k : YardState := { YardState.reset with dir := (List.range 16).map fun i => ((i + 1) * 32768, .owned 1) }
     k.dirVictim 0 = some (16 * 32768) ∧ YardState.reset.dirVictim 0 = none) ∧
    (let s : State := { ready.modShed 0 (fun k => k.putL2 8 .m) with yardA := { YardState.reset with mode := 3 } }
     (s.sheds[(0 : ShedId)]).l2State 8 = some .m ∧ s.lostAt (lineAddr 8) = true) := by
  decide

/-- The first word of C4's window, written or read by port A; a load and a store of it pass their checks, and its port-A use is met. -/
theorem witness_ShedWindowPortB :
    let hit (u : PortAUse) : PortHit := ⟨0x01080000, u, 1⟩
    let s (u : PortAUse) : State := (readyMem [] [(0x10000, 0)]).modCore 0 fun k => { k with ports := [hit u], portMicro := false }
    let addr (o : Opd) : Bool := decide (o.place = .mem (at_ 0x01080000) 0x01080000)
    let load : L64 := l64 (reg 7) (mem 4) 0
    let store : L64 := l64 (mem 4) (reg 1) 0
    (Claims.met (readyMem [] [(0x10000, 0)]) 0 (.l64 0 load) [hit .write] = [hit .write] ∧
      Claims.met (readyMem [] [(0x10000, 0)]) 0 (.l64 0x2DD (l64 (mem 4) (reg 1) 0)) [hit .write] = []) ∧
    (∃ u, PassesL (s .write) 0 0x000 8 encDV load (moveUses 0 load) u ∧
      (addr (opB u 0 load) && decide ((u.core 0).ports = [hit .write]) && u.region 0x01080000 == .window
        && okay (u.putValue 0 (opA u 0 load) 8 ⟨5, 0xE, some 0x01080000⟩)) = true) ∧
    ∃ u, PassesL (s .read) 0 0x000 8 encDV store (moveUses 0 store) u ∧
      (addr (opA u 0 store) && decide ((u.core 0).ports = [hit .read])) = true :=
  ⟨by decide, passes_of (by decide), passes_of (by decide)⟩

/-- The fifteenth refusal and the sixteenth; the first word of C4's window, which no commit and one of SMOV can write. -/
theorem witness_CommitWord :
    (ready.commitFits 0 0x01080000 2 = false ∧ ((readyMem [] [(0x10000, 0)]).modCore 0 fun k =>
        { k with held := some ⟨0x180, 8, l64 (mem 4) (mem 1) 0x6000, none⟩ }).commitFits 0 0x01080000 2 = true) ∧
    (ready.region 0x01080000 = .window ∧ slotCore 0 1 ≠ 0 ∧ ready.remoteUnavailable 0 1 = false ∧ ready.canIssue 0 = true ∧
      (8 : Tag).toNat < 9 ∧ 13 < (0xE : Tag).toNat) ∧
    ((readyWith fun k => { k with represented := 14 }).core 0).represented < 15 ∧
      15 ≤ ((readyWith fun k => { k with represented := 15 }).core 0).represented ∧
      ((readyWith fun k => { k with represented := 15 }).core 0).depth.val < 3 := by
  decide

/-- The scrubber at a row of the bank that is not mapped, and at a spare in use; the first row that a march repairs, with no spare used and
with one left. -/
theorem witness_BankErrorsAndRepair :
    (ready.sheds[shedOf 0]).retained = false ∧ (ready.core 0).scrubNext = 0 ∧ (ready.core 0).spareMap = [] ∧
      (let k := (readyWith fun k => { k with scrubNext := 16415, spareMap := [(700, 31)] }).core 0
       16384 ≤ k.scrubNext ∧ k.spareMap = [(700, k.scrubNext - 16384)]) ∧
      (512 : BitVec 14).toNat = 512 ∧ (ready.core 0).paddockDue = false ∧ (ready.sheds[shedOf 0]).march = none ∧
      (ready.sheds[shedOf 0]).marchDue = [] ∧
      ∀ m ∈ ([([], 0), ((List.range 31).map fun i => (1000 + i, i), 31)] : List (List (Nat × Nat) × Nat)),
        ({ core0 with spareMap := m.1 } : Core).freeSpare = some m.2 ∧ ∀ e ∈ m.1, e.1 ≠ (512 : BitVec 14).toNat := by
  decide

theorem witness_ShedRetention :
    State.reset.mayRetain 0 = true ∧
      (let s := ready.modShed 0 fun k => { k with retained := true }
       (s.sheds[(0 : ShedId)]).retained = true ∧
         ∀ c : CoreId, shedOf c = 0 → s.openSegments c = [] ∧ (s.core c).sbuf = []) := by
  decide

/-! ## Witnesses: the decimal and string groups -/

/-- Bytes at C1 (bank byte 0x2000) and at C2 (0x3000), every word from there on tagged BIN. -/
def fields (a b : List (Nat × Byte)) : State :=
  readyMem (a ++ b) (((List.range 16).map fun i => (0x400 + i, 0)) ++ (List.range 32).map fun i => (0x600 + i, 0))

/-- A decimal L64 on the memory fields at C1 and C2: lengths less one and options. -/
def dec (l1 l2 : BitVec 5) (opt : BitVec 6) : L64 := l64 (mem 1) (mem 2) (l1 ++ l2 ++ opt)

theorem witness_DecimalFields : zonedLength .embedded 1 = none ∧ zonedLength .leading 2 = none := by decide

/-- Two fields of two bytes: A's digits invalid, B's sign invalid, both valid. -/
theorem witness_DecimalThree :
    ∀ p ∈ ([([(0x2001, 0xAC)], [(0x3001, 0x0C)], false, true), ([(0x2001, 0x0C)], [(0x3001, 0x01)], true, false),
        ([(0x2000, 0x99), (0x2001, 0x9C)], [(0x3001, 0x2D)], true, true)] : List (List (Nat × Byte) × List (Nat × Byte) × Bool × Bool)),
      let w := dec 1 1 0
      (Claims.packedThree.all fun e =>
        passesLB (fields p.1 p.2.1) 0 e.2.1 8 (encWMR (fun w => rawOpt w == 0) fun _ => none) w (fieldUses 0 w true .pdec .pdec Tag.pdec)
          (fun u => (packedValue (u.field 0 (fieldA u 0 w) 2)).toOption.isSome == p.2.2.1
            && (packedValue (u.field 0 (fieldB u 0 w) 2)).toOption.isSome == p.2.2.2
            && okay (u.putField 0 (fieldA u 0 w) ((reduce 3 (e.2.2 999 (-2))).packed 2) Tag.pdec))) = true := by
  decide

/-- DDIV by zero, with a quotient of four digits in a field of three, and one that fits. -/
theorem witness_DecimalDivide :
    ∀ p ∈ ([([(0x2001, 0x5C)], 5, [(0x3001, 0x0C)], 0), ([(0x2000, 0x99), (0x2001, 0x9C)], 999, [(0x3001, 0x2C)], 2)] :
        List (List (Nat × Byte) × Int × List (Nat × Byte) × Int)),
      let w := dec 1 1 5
      passesLB (fields p.1 p.2.2.1) 0 0x103 8
        (encWMR (fun w => rawOpt w < 32 && (!(rawOpt w).testBit 4 || rawOpt w % 16 == 0)) fun _ => if 9 < rawOpt w % 16 then some (2, 0xA) else none)
        w (fieldUses 0 w true .pdec .pdec Tag.pdec)
        (fun u => (packedValue (u.field 0 (fieldA u 0 w) 2)).toOption == some p.2.1
          && (packedValue (u.field 0 (fieldB u 0 w) 2)).toOption == some p.2.2.2
          && okay (u.putField 0 (fieldA u 0 w) ((reduce 3 500).packed 2) Tag.pdec)) = true := by
  decide

/-- The instructions of two operands on valid fields; DSRD by −1. -/
theorem witness_DecimalTwo :
    let s := fields [(0x2001, 0x5C)] [(0x3001, 0x1D)]
    let valid (w : L64) (u : State) : Bool := (packedValue (u.field 0 (fieldB u 0 w) (rawL2 w))).toOption == some (-1)
      && okay (u.putField 0 (fieldA u 0 w) ((reduce 3 5).packed 2) Tag.pdec)
    (∀ w ∈ ([dec 1 1 0] : List L64), (Claims.packedTwo.all fun e => passesLB s 0 e.2.1 8 (encWMR e.2.2.1 fun _ => none) w
      (fieldUses 0 w false .pdec .pdec Tag.pdec) (valid w)) = true) ∧
    (∀ w ∈ ([dec 1 1 0x3F] : List L64), passesLB s 0 0x107 8 (encWMR (fun _ => true) fun _ => none) w
      (fieldUses 0 w false .pdec .pdec Tag.pdec) (valid w) = true) ∧
    passesLB s 0 0x105 8 (encWMR (fun w => rawOpt w == 0) fun _ => none) (dec 1 1 0) (fieldUses 0 (dec 1 1 0) false .pdec .pdec Tag.pdec)
      (valid (dec 1 1 0)) = true ∧
    passesLB s 0 0x106 8 { a := .m, b := .m, c := .raw, zero := fun w => rawOpt w == 0 } (dec 1 1 0) (fun s =>
      [(fieldA s 0 (dec 1 1 0)).use true false 2 .pdec Tag.bin, (fieldB s 0 (dec 1 1 0)).use true false 2 .pdec Tag.bin])
      (fun u => (packedValue (u.field 0 (fieldA u 0 (dec 1 1 0)) 2)).toOption == some 5 && valid (dec 1 1 0) u) = true := by
  decide

/-- The conversions between packed and binary. -/
theorem witness_DecimalBinary :
    let s := fields [] [(0x3001, 0x1D)]
    (∀ p ∈ ([(8, reg 7), (16, reg 8)] : List (Nat × BitVec 16)), let w := l64 p.2 (mem 2) (0#5 ++ 1#5 ++ 0#6)
      let dst (s : State) := s.resolve 0 0 w.sa p.1
      passesLB s 0 (if p.1 = 8 then 0x108 else 0x109) 8 (encToB (p.1 == 16)) w
        (fun s => [(dst s).use false true p.1 .bin Tag.bin, (fieldB s 0 w).use true false (rawL2 w) .pdec Tag.bin])
        (fun u => (packedValue (u.field 0 (fieldB u 0 w) (rawL2 w))).toOption == some (-1)
          && okay (u.putValue 0 (dst u) p.1 ⟨5, Tag.bin, none⟩)) = true) ∧
    ∀ p ∈ ([(8, Role.vi, reg 3), (16, Role.v, reg 4)] : List (Nat × Role × BitVec 16)), let w := l64 (mem 1) p.2.2 (1#5 ++ 0#5 ++ 0#6)
      let src (s : State) := s.resolve 0 1 w.sb p.1
      passesLB s 0 (if p.1 = 8 then 0x10A else 0x10B) 8 { a := .w, b := p.2.1, c := .raw, wideB := p.1 == 16, zero := fun w => rawL2 w == 1 && rawOpt w == 0 } w
        (fun s => [(fieldA s 0 w).use false true 2 .pdec Tag.pdec, (src s).use true false p.1 .bin Tag.bin])
        (fun u => okay (u.putField 0 (fieldA u 0 w) ((reduce 3 5).packed 2) Tag.pdec)) = true := by
  decide

/-- DPAK and DUNP in every sign form, and DTST of a packed and of a zoned field. -/
theorem witness_DecimalZoned :
    (∀ p ∈ ([(0, [0x31, 0x32]), (1, [0x2D, 0x32]), (2, [0x31, 0x2B]), (3, [0x31, 0x32])] : List (Nat × List Byte)),
      let w := dec 1 1 (BitVec.ofNat 6 p.1)
      let z := Zoned.ofSgn (rawOpt w % 4)
      (passesLB (fields [] [(0x3000, p.2.getD 0 0), (0x3001, p.2.getD 1 0)]) 0 0x10C 8 (encWMR (fun w => rawOpt w < 8) fun w => zonedLength z (rawL2 w)) w
          (fieldUses 0 w false .pdec .text Tag.pdec)
          (fun u => (zonedValue z ((rawOpt w).testBit 2) (u.core 0).zn.toNat (u.field 0 (fieldB u 0 w) 2)).toOption.isSome
            && okay (u.putField 0 (fieldA u 0 w) ((reduce 3 5).packed 2) Tag.pdec))
        && passesLB (fields [] [(0x3001, 0x1D)]) 0 0x10D 8 (encWMR (fun w => rawOpt w < 4) fun w => zonedLength z (rawL1 w)) w
          (fieldUses 0 w false .text .pdec Tag.text)
          (fun u => (packedValue (u.field 0 (fieldB u 0 w) 2)).toOption == some (-1)
            && okay (u.putField 0 (fieldA u 0 w) ((reduce (z.digits 2) (-1)).zoned z 3 2) Tag.text))) = true) ∧
    ∀ opt ∈ ([0, 1, 3, 9] : List (BitVec 6)),
      let w : L64 := ⟨0, false, mem 1, 0, 1#5 ++ 0#5 ++ opt⟩
      let zoned := (rawOpt w).testBit 0
      let z := Zoned.ofSgn (rawOpt w / 2 % 4)
      passesLB (fields [(0x2001, 0x5C)] []) 0 0x10E 8
        { a := .m, b := .unused, c := .raw
          zero := fun w => rawL2 w == 1 && rawOpt w < 16 && (zoned || rawOpt w / 2 == 0)
          range := fun w => if zoned then zonedLength z (rawL1 w) else none } w
        (fun s => [(fieldA s 0 w).use true false (rawL1 w) (if zoned then .text else .pdec) Tag.bin]) (fun _ => true) = true := by
  decide

/-- Words of the string instructions in their order, with a count of zero and with one of three. -/
def stringWords : List (L64 × L64) :=
  [(0, 0), (0, 0), (0, 0), (0x0200, 0), (0, 0), (0x0500, 0), (0x0700, 0), (0x0700, 0), (0x0400, 0), (0x0400, 0), (0, 0), (0x0700, 0),
    (0x0200, 0x8000)].mapIdx fun i (p : BitVec 16 × BitVec 16) =>
    let b := if i = 2 then 0 else mem 2
    (l64 (mem 1) b (p.1 + p.2), l64 (mem 1) b (p.1 + 0x6000))

/-- Text, and one packed byte where B is packed. -/
def texts : State := fields [(0x2000, 0x41)] [(0x3000, 0x0C)]

/-- A plan issued in a state with what it takes at issue, run to its end. -/
def ranWith (p : StrPlan) (w : L64) (u : State) : Except Stop Done := p.run 0 (p.take u) 5 true (u.startString 0 p.opc w (p.take u))

/-- Each string instruction with a zero count, and with three bytes run to its end; and one that stops at invalid packed data. -/
theorem witness_StringInstructions :
    ((Claims.strings.zip stringWords).all fun e =>
      let p := e.1.2.1 0 e.2.1
      let q := e.1.2.1 0 e.2.2
      passesB texts 0 p.opc 8 e.2.1 (p.enc.bad e.2.1) (guardOf e.2.1) (p.check 0) (p.issueUses 0)
          (fun u => p.count (u.core 0) == 0 && (u.core 0).issued.isNone)
        && passesB texts 0 q.opc 8 e.2.2 (q.enc.bad e.2.2) (guardOf e.2.2) (q.check 0) (q.issueUses 0)
          (fun u => q.count (u.core 0) == 3 && (ranWith q e.2.2 u).toOption.isSome)) = true ∧
    (let w := l64 (mem 1) (mem 2) 0x6000
     let p := planEdit 0 w
     passesB (fields [(0x2000, 0x41)] [(0x3000, 0x01)]) 0 p.opc 8 w (p.enc.bad w) (guardOf w) (p.check 0) (p.issueUses 0)
       (fun u => match ranWith p w u with
         | .error (.exc _ _) => true
         | _ => false)) = true := by
  decide

/-- SMOV that waits with what it took at issue goes on to its end. -/
theorem witness_StringGoesOn :
    let w := l64 (mem 1) (mem 2) 0x6000
    let p := planSmov 0 w
    passesB (texts.modCore 0 fun k => { k with held := some ⟨p.opc, 8, w, some (p.take texts)⟩ }) 0 p.opc 8 w (p.enc.bad w) (guardOf w) (p.check 0)
      (p.issueUses 0) (fun u => (u.core 0).issued == some (p.take texts) && (p.run 0 (p.take texts) 5 false u).toOption.isSome) = true := by
  decide

/-- `Claims.Begins` as a test. -/
def beginsB (p : StrPlan) (w : L64) (s : State) (q : State → Bool) : Bool :=
  passesB s 0 p.opc 8 w (p.enc.bad w) (guardOf w) (p.check 0) (p.issueUses 0) fun u =>
    let v := u.startString 0 p.opc w (p.take u)
    let us := (p.unit (p.take u) true v).uses
    (u.core 0).held.isNone && (u.core 0).resume == 0 && p.count (u.core 0) != 0 && (u.core 0).engine.isNone
      && (v.unitFault 0 us).isNone && (v.markFault 0 us).isNone && q u

/-- A string instruction that passes the test begins. -/
theorem begins_of {p : StrPlan} {w : L64} {s : State} {q : State → Bool} (h : beginsB p w s q = true) :
    ∃ u, Claims.Begins p 0 w s u ∧ q u = true := by
  obtain ⟨u, hp, hq⟩ := passes_of h
  simp only [Bool.and_eq_true, Option.isNone_iff_eq_none, beq_iff_eq, bne_iff_ne, ne_eq] at hq
  obtain ⟨⟨⟨⟨⟨⟨h1, h2⟩, h3⟩, h4⟩, h5⟩, h6⟩, h7⟩ := hq
  exact ⟨u, ⟨hp, h1, h2, h3, h4, h5, h6⟩, h7⟩

/-- Each string instruction of three bytes begins, and its one unit writes what it has; SXU8 and SXL1 with room for all. -/
theorem witness_StringsOfOneUnit :
    ((Claims.strings.zip stringWords).all fun e => beginsB (e.1.2.1 0 e.2.2) e.2.2 texts fun u =>
      decide ((u.core 0).gNat (rawCount e.2.2) = 3)
        && okay ((Claims.firstUnit (e.1.2.1 0 e.2.2) 0 e.2.2 u).writeMem 0 0 ⟨0x2000, [1, 2, 3], tagsFor 0x2000 3 0x2⟩)) = true ∧
    (∀ w ∈ ([l64 (mem 1) (mem 2) 0x6400] : List L64), (2 * 3 ≤ (texts.core 0).gNat (rawAux w)) ∧
      texts.bytesSeen 0 0x3000 3 = [0x0C, 0, 0].flatMap Claims.utf8) := by
  decide

/-- A fill of 0x123 bytes makes a progress commit of its first 64. -/
theorem witness_ProgressCommit :
    let w := l64 (mem 1) 0 0x4000
    (planOf .sfil 0 w) = planSfil 0 w ∧ ready.canIssue 0 = true ∧ ((planSfil 0 w).commitOne 0 w ready).isSome = true ∧
    ∃ u, Claims.Begins (planSfil 0 w) 0 w ready u ∧
      (decide (64 < (u.core 0).gNat (rawCount w)) && !((planSfil 0 w).unit ((planSfil 0 w).take u) true (u.startString 0 (planSfil 0 w).opc w ((planSfil 0 w).take u))).final
        && okay ((Claims.firstUnit (planSfil 0 w) 0 w u).writeMem 0 0 ⟨0x2000, List.replicate 64 (rawByte w), tagsFor 0x2000 64 0x2⟩)) = true :=
  ⟨rfl, by decide, by decide, begins_of (by decide)⟩

/-- SMOV of 0x123 bytes whose engine stands at a progress word commits its first 64. -/
theorem witness_MicroProgress :
    let w := l64 (mem 1) (mem 2) 0x4000
    let s := readyMem [] (((List.range 40).map fun i => (0x400 + i, 0)) ++ (List.range 40).map fun i => (0x600 + i, 0))
    let t := s.modCore 0 fun k => { k with
      cs := some [(0x180, withParity 0x50000000)], engine := some (Engine.start 0x180),
      held := some ⟨0x180, 8, w, some ((planSmov 0 w).take s)⟩ }
    planOf .smov 0 w = planSmov 0 w ∧ (((planSmov 0 w).commitOne 0 w t).map fun v => decide ((v.core 0).resDone = 64)) = some true :=
  ⟨rfl, by decide⟩

theorem witness_StringResults :
    (strA 0 (l64 (mem 1) 0 0x6020) texts).place = .mem (at_ 0x2000) 0x2000 ∧ (texts.core 0).resume = 0 ∧
      (ranWith (planSfil 0 (l64 (mem 1) 0 0x6020)) (l64 (mem 1) 0 0x6020) texts).toOption.isSome = true ∧
      (ranWith (planScmp 0 (l64 (mem 1) (mem 2) 0x6520)) (l64 (mem 1) (mem 2) 0x6520) texts).toOption.isSome = true ∧
      (ranWith (planSfnd 0 (l64 (mem 1) (mem 2) 0x6700)) (l64 (mem 1) (mem 2) 0x6700) texts).toOption.isSome = true ∧
      (ranWith (planSchk 0 (l64 (mem 1) (mem 2) 0x6700)) (l64 (mem 1) (mem 2) 0x6700) texts).toOption.isSome = true := by
  decide

/-! ## Witnesses: the floating-point group -/

/-- Every instruction on registers G2 and G4 with the enables clear, an invalid operation with its enable set, and a store of a long
result; `f` and `g` are the formats of sources and destination. -/
def floatForms (opc : Nat) (f g : Fmt) (ra rb rc : Role) (clsA : State → Use) (w : L64) : Bool :=
  passesLB ready 0 opc 8 { a := ra, b := rb, c := rc, wideA := g.wide, wideB := f.wide, wideC := decide (rc ≠ .unused) && f.wide } w
    (fun s => clsA s :: fpSource f (fpB 0 w f.bytes s) :: if rc = .unused then [] else [fpSource f (fpC 0 w f.bytes s)])
    (fun u => okay (u.putValue 0 (fpA 0 w g.bytes u) g.bytes ⟨0, g.tag, none⟩))

theorem witness_FloatResults :
    (Claims.floatThree.all fun e => let w := l64 (reg 8) (reg 2) (reg 4)
      floatForms e.2.2.1 e.2.1 e.2.1 .d .v .v (fun s => fpDest e.2.1 (fpA 0 w e.2.1.bytes s)) w) = true ∧
    (Claims.floatTwo.all fun e => let w := l64 (reg 8) (reg 2) 0
      floatForms e.2.2.2.1 e.2.1 e.2.2.1 .d .v .unused (fun s => fpDest e.2.2.1 (fpA 0 w e.2.2.1.bytes s)) w) = true ∧
    (∀ p ∈ ([(.b64, 0x200), (.d64, 0x210), (.d128, 0x220)] : List (Fmt × Nat)), let f := p.1
      let w := l64 (reg 8) (reg 2) (reg 4)
      let v := l64 (reg 8) (reg 2) 0
      (floatForms (p.2 + 5) f f .u .v .v (fun s => (fpA 0 w f.bytes s).use true true f.bytes f.cls f.tag) w
        && floatForms (p.2 + 7) f f .d .v .unused (fun s => fpDest f (fpA 0 v f.bytes s)) v
        && passesLB ready 0 (p.2 + 9) 8 { a := .d, b := .vi, c := .unused, wideA := f.wide } v
          (fun s => [fpDest f (fpA 0 v f.bytes s), (fpB 0 v 8 s).source]) (fun _ => true)
        && passesLB ready 0 (p.2 + 10) 8 { a := .d, b := .v, c := .unused, wideB := f.wide } v
          (fun s => [(fpA 0 v 8 s).dest, fpSource f (fpB 0 v f.bytes s)])
          (fun u => okay (u.putValue 0 (fpA 0 v 8 u) 8 ⟨0, Tag.bin, none⟩))) = true) := by
  decide

/-- The packed conversions: PTODQ of +0 in G6:G7 and DQTOP. -/
theorem witness_FloatPacked :
    let w := l64 (reg 8) (reg 6) 0
    let s := readyWith fun k => (k.setG 6 0xC 0).setG 7 0 0
    (passesLB s 0 0x236 8 { a := .d, b := .v, c := .unused, wideA := true, wideB := true } w
        (fun s => [fpDest .d128 (fpA 0 w 16 s), (fpB 0 w 16 s).use true false 16 .pdec Tag.bin])
        (fun u => okay (u.putValue 0 (fpA 0 w 16 u) 16 ⟨0, Tag.d128, none⟩))
      && passesLB s 0 0x237 8 { a := .d, b := .v, c := .unused, wideA := true, wideB := true } w
        (fun s => [(fpA 0 w 16 s).use false true 16 .pdec Tag.pdec, fpSource .d128 (fpB 0 w 16 s)]) (fun _ => true)) = true := by
  decide

theorem witness_FloatEnds :
    (Fmt.b64.div ⟨0, false, false⟩ (.fin false 1 0) (.fin false 0 0)).fl.bits &&& 0x1F ≠ 0 ∧
      ((readyWith fun k => { k with fpq := [⟨0, 7, false, 5, 0, 1⟩] }).core 0).fpq = [⟨0, 7, false, 5, 0, 1⟩] := by
  decide

/-- FCMP of G7 and G2. -/
def compares (ctl v : Word) (q : FpFlags → Bool) : Bool :=
  let w := l64 (reg 7) (reg 2) 0
  passesLB (readyWith fun k => { k.setG 7 v 0 with fpctl := ctl }) 0 0x206 8 { a := .v, b := .v, c := .unused } w
    (fun s => [fpSource .b64 (fpA 0 w 8 s), fpSource .b64 (fpB 0 w 8 s)])
    (fun u => q (Fmt.b64.compare (u.fpValue 0 .b64 (fpA 0 w 8 u)) (u.fpValue 0 .b64 (fpB 0 w 8 u))).2.2.2)

/-- Ordered numbers, and a signalling NaN with its enable set. -/
theorem witness_FloatCompare :
    compares 0 5 (fun fl => fl.bits == 0) = true ∧ compares 8 0x7FF0000000000001 (fun fl => fl.bits == 1) = true := by
  decide

theorem witness_FloatEncodings :
    (2 ^ 53 - 1 < Fmt.b64.radix ^ Fmt.b64.prec ∧ Fmt.b64.qmin ≤ Fmt.b64.qmax) ∧ (1 < Fmt.b64.payloads ∧ 1 < Fmt.d64.payloads) := by
  decide

/-- One third in binary64 and in decimal64, under each rounding mode. -/
theorem witness_FloatRoundsOnce :
    ∀ rm ∈ ([0, 1, 2, 3, 4] : List Nat), ∀ f ∈ ([.b64, .d64] : List Fmt),
      let r := f.round ⟨rm, false, false⟩ false ⟨1, 3⟩ 0
      r.fl.of = false ∧ r.fl.uf = false ∧ r.fl.ix = true := by
  decide

/-! ## Witnesses: the yards -/

/-- Chunk errors at positions. -/
def errAt (l : List (Fin 10)) : List ChunkError := l.map fun p => ⟨p, 1⟩

theorem witness_YardLineReads :
    let s := State.reset
    (s.yard .a).lost 0 = false ∧ (s.yard .a).missingAt 0 = none ∧ (∀ pos : Fin 10, pos ≠ 1 → roleAt 0 pos.val ≠ 1) ∧
      s.lostAt (yardLineAddr .a 0) = false ∧ 3 ≤ s.steward.stage ∧ roleAt 0 (2 : Fin 10).val = 2 ∧ roleAt 0 (0 : Fin 10).val = 0 ∧
      ∀ w, w < 32 → storedTag (s.mem.tagAt (yardLineAddr .a 0 + 8 * w)) = s.mem.tagAt (yardLineAddr .a 0 + 8 * w) := by
  decide

/-- Two data chunks of line 0 with errors leave words unknown. -/
theorem witness_UnknownWords : (State.reset.readOutcome .a 0 (errAt [2, 3])).unknown ≠ 0 := by
  simp only [State.readOutcome, readWhole, readMissing, failing, dataOk, metaOk, crc16_eq, State.stripe, metaChunk, crc14_eq]
  decide +kernel

/-- One bit flipped in a data chunk of line 0 fails its check. -/
theorem witness_FailedChunk : (State.reset.readOutcome .a 0 [⟨2, 1⟩]).fails ≠ [] := by
  simp only [State.readOutcome, readWhole, readMissing, failing, dataOk, metaOk, crc16_eq, State.stripe, metaChunk, crc14_eq]
  decide +kernel

/-- Fifteen lines, and fourteen, on which the chunks of channel 3 have failed within 1 ms of TIMER. -/
theorem witness_FailCounts :
    ∀ n ∈ ([14, 15] : List Nat),
      let k : YardState := { YardState.reset with fails := (List.range n).map fun i => (3, i + 1, 0) }
      k.mode = 0 ∧ (3 : Fin 11) ∉ k.deadChannels ∧ k.posMap[(3 : Fin 10)] = 3 ∧
        (k.fails.filter fun e => e.1 == 3 && e.2.1 != 0 && decide ((1000000 : Word).toNat ≤ e.2.2.toNat + 1000000)).length = n := by
  decide

/-- A yard with channel 3 failed, before, in and after its rebuild. -/
def failedYard : YardState := { YardState.reset with mode := 1, failed := 3, missing := some 3, deadChannels := [3] }

theorem witness_YardChannels :
    let k := YardState.reset
    (k.mode = 0 ∧ (3 : Fin 11) ∉ k.deadChannels ∧ k.posMap[(3 : Fin 10)] = 3 ∧ (∀ q : Fin 10, k.posMap[q] = 3 → q = 3)) ∧
    (k.mode ≠ 3 ∧ (10 : Fin 11) ∉ k.deadChannels ∧ (∀ q : Fin 10, k.posMap[q] ≠ 10) ∧ k.spare.toNat = (10 : Fin 11).val) ∧
    (failedYard.mode = 1 ∧ (4 : Fin 11) ∉ failedYard.deadChannels ∧ failedYard.missing = some 3 ∧
      failedYard.posMap[(4 : Fin 10)] = 4 ∧ (4 : Fin 10) ≠ 3) ∧
    (failedYard.lostUp = false ∧ failedYard.spare.toNat < 11) ∧
    (∀ r ∈ ([2 ^ 28 - 2, 2 ^ 28 - 1] : List Nat), let k := { failedYard with mode := 2, rptr := r }
      k.mode = 2 ∧ k.lostUp = false ∧ (k.rptr + 1 < 2 ^ 28 ∨ 2 ^ 28 ≤ k.rptr + 1)) ∧
    (k.sweepHours ≠ 0 ∧ k.mode ≠ 2 ∧ ∀ q : Fin 10, (k.posMap[q]).val ≠ k.spare.toNat) ∧
    ({ k with initialised := false } : YardState).initialised = false ∧ 3 ≤ State.reset.steward.stage := by
  decide

/-- A rebuild stopped by the read of its line: the sixteenth line on which the chunk of channel 4 fails. -/
theorem witness_RebuildStops :
    let s : State := { State.reset with yardA := { failedYard with
      mode := 2, rptr := 40, missing := some 3, fails := (List.range 15).map fun i => (4, i + 1, State.reset.timer) } }
    (s.yard .a).mode = 2 ∧ 3 ≤ s.steward.stage ∧ (((s.yard .a).countFails s.timer 40 [roleAt 40 4]).mode = 1) := by
  decide

/-! ## Witnesses: the Gate -/

/-- A submission entry: operation, flags, session, NENT, RID and payload length. -/
def entry (opc flags sidx nent rid plen : Nat) : List Byte :=
  toLe 1 opc ++ toLe 1 flags ++ toLe 2 sidx ++ toLe 2 nent ++ toLe 2 0 ++ toLe 8 rid ++ toLe 4 plen ++ List.replicate 108 0

/-- Queue pair 0 of four entries with one exposed, and sessions 0 open, 1 closed, 2 a replica, 3 moving. -/
def served (k : Session) (rs : List Request) : State :=
  { State.reset with
    sqs := State.reset.sqs.set 0 ⟨true, 0, 0x1000, 4, 3, 0, [5], false⟩
    cqs := State.reset.cqs.set 0 ⟨true, 0, 0x2000, 4, 0, 0, true⟩
    sessions := [(0, k), (2, { Session.closed with state := 1, replica := true }), (3, { Session.closed with state := 2 })]
    requests := rs }

/-- An open session that RIDs up to 100 have reached, where 100 and 37 are done. -/
def openSession : Session := { Session.closed with wbase := 100, wmap := 0x8000000000000001, state := 1 }

/-- A tail and a head at the end of the queue and past it, and a queue that does not exist. -/
theorem witness_QueueDoorbells :
    let s := served openSession []
    s.serving = true ∧ (s.sqs[(0 : QueueId)]).valid = true ∧ (3 : BitVec 16).toNat < (s.sqs[(0 : QueueId)]).size ∧
      (s.sqs[(0 : QueueId)]).size ≤ (4 : BitVec 16).toNat ∧ (s.cqs[(0 : QueueId)]).valid = true ∧
      (s.cqs[(0 : QueueId)]).size = 4 ∧ (s.sqs[(63 : QueueId)]).valid = false := by
  decide

/-- An entry of each class: malformed, ping, closed, replica, moving, read-only, attached, stale, duplicate, above and within the
window. -/
theorem witness_EntryClassification :
    (served openSession []).canFetch 0 = true ∧ (served openSession []).nextSq = some 0 ∧ (served openSession []).nextSq ≠ some 5 ∧ entryOk (entry 0 0 0 0 7 0) = false ∧
      (entryOk (entry 4 0 0 0 7 0) = true ∧ entryOpc (entry 4 0 0 0 7 0) = 4) ∧
      (entryOk (entry 1 0 1 0 7 0) = true ∧ ((served openSession []).session 1).state = 0) ∧
      ((served openSession []).session 2).replica = true ∧ ((served openSession []).session 3).state = 2 ∧
      (((served openSession []).session 0).state = 1 ∧ ((served openSession []).session 0).replica = false) ∧
      (entryOk (entry 3 0 0 0 7 0) = true ∧ entryOpc (entry 3 0 0 0 7 0) = 3) ∧
      (let s := served openSession [{ request 1 .queued with rid := 7 }]
       s.nextSq = some 0 ∧ (s.requests.find? fun r => r.sidx.toNat == 0 && r.rid.toNat == 7).isSome = true) ∧
      (openSession.wbase.toNat = 36 + 64 ∧ openSession.wbase.toNat < 37 + 64) ∧
      (openSession.wmap.getLsbD (100 - 37) = true ∧ openSession.wmap.getLsbD (100 - 38) = false ∧ openSession.wbase.toNat < 101) := by
  decide

/-- Core 0 with two slots in service. -/
def gated (rs : List Request) : State :=
  { served openSession rs with dispatch := State.reset.dispatch.set 0 ⟨true, 2, 6, 0⟩ }

/-- A queued request with an entry and a deadline. -/
def due (e : List Byte) (d : Word) : Request := { request 1 .queued with entry := e, deadline := d, runs := 0 }

/-- A free slot beside a used one. -/
theorem witness_FreeSlot : (gated [request 2 (.taken 0 0)]).freeSlot 0 = some 1 := by decide

/-- An expired request, and one within its deadline. -/
theorem witness_Expired :
    let s (d : Word) := gated [due (entry 1 0 0 0 7 0) d]
    ((s 0).serving = true ∧ ((s 0).entry 0).en = true) ∧ (s 0).freeSlot 0 = some 0 ∧
      ((s 0).nextFor 0).any (fun r => (s 0).expired r) = true ∧ ((s 1).nextFor 0).any (fun r => !(s 1).expired r) = true :=
  ⟨by decide, by decide, by decide, by decide⟩

/-- A direct payload, and payloads by pointer of 64 B and of one byte more for a slot of 64 B. -/
theorem witness_Payloads :
    (entry 1 0 0 0 7 0).length = 128 ∧ entryPtr (entry 1 0 0 0 7 0) = false ∧
      entryPtr (entry 1 1 0 0 7 64) = true ∧ entryPlen (entry 1 1 0 0 7 64) = 2 ^ 6 ∧
      entryPlen (entry 1 1 0 0 7 65) = 2 ^ 6 + 1 ∧ ((gated []).entry 0).psz = 6 ∧
      ((gated [due (entry 1 1 0 0 7 64) 1]).nextFor 0).isSome = true :=
  ⟨by simp [entry, toLe], by decide, by decide, by decide, by decide, by decide, by decide⟩

theorem witness_PayloadArrival :
    let r : Request := { request 1 (.payload 0 1) with entry := entry 1 1 0 0 7 64 }
    (gated [r]).requests.find? (fun r => r.phase == .payload 0 1) = some r ∧ entryPlen r.entry = 64 ∧ (gated [r]).slotHolds 0 1 r = true ∧
      ({ gated [r] with dispatch := State.reset.dispatch } : State).slotHolds 0 1 r = false := by
  decide

/-- An owner that awaits a payload is offered nothing, and no payload arrives once a warm reset has begun. -/
theorem witness_PayloadAwaited :
    (∃ r ∈ (gated [request 1 (.payload 0 1)]).requests, ∃ n, r.phase = .payload 0 n) ∧
      ({ gated [] with steward := { Steward.reset with warmWait := true } } : State).serving = false ∧
      ∀ r ∈ (gated [due (entry 1 0 0 0 7 0) 1]).requests, ∀ n, r.phase ≠ .payload 0 n :=
  ⟨⟨_, List.mem_singleton.mpr rfl, 1, rfl⟩, by decide, by decide⟩

/-- A posted request with every segment settled, one of a failed yard, one that no core can take, and one past its deadline. -/
theorem witness_RequestCompletes :
    let p : Request := { request 1 .posted with segs := 2, acked := 1, local_ := 1 }
    let q := request 1 .queued
    ((gated [p]).requests.find? (·.id == 1) = some p ∧ p.segs ≤ p.acked + p.local_) ∧
    (let s := { gated [q] with yardA := { YardState.reset with mode := 3 } }
     s.requests.find? (·.id == 1) = some q ∧ (s.yard (homeOf q.sidx)).mode = 3 ∧ s.steward.fatal = false) ∧
    (let s := served openSession [q]
     s.requests.find? (·.id == 1) = some q ∧ (s.yard (homeOf q.sidx)).mode ≠ 3 ∧ s.noCore q = true) ∧
    (let e : Request := { q with deadline := 0, runs := 0 }
     (gated [e]).requests.find? (·.id == 1) = some e ∧ e.runs = 0 ∧ e.deadline ≤ (gated [e]).timer) := by
  decide

/-- The second loss; a sealed SUBMIT with and without its outcomes; any other; and one on its way back. -/
theorem witness_LostRequests :
    let r : Request := request 1 (.lost 0 false)
    (∀ q ∈ ([{ r with losses := 2 }, { r with losses := 1, segs := 1, acked := 1 }, { r with losses := 1, segs := 1 }, r] : List Request),
      (gated [q]).requests.find? (·.id == 1) = some q ∧ q.phase = .lost 0 false ∧ entryOpc q.entry = 1) ∧
    (gated [request 1 (.returning 0)]).requests.find? (·.id == 1) = some (request 1 (.returning 0)) ∧
      ((gated []).session 0).owner = 0 ∧ (1 : Owner) ≠ 0 ∧ (gated []).ownerDown 0 = true ∧ (ready.ownerDown 0 = false) ∧
      (({ gated [] with dispatch := State.reset.dispatch.set 1 ⟨true, 2, 6, 0⟩ } : State).entry 1).en = true := by
  decide

/-! ## Witnesses: mailboxes, registers and SMBus -/

/-- Request bytes: a command code and its operands from byte 0x10. -/
def req (cmd : Nat) (args : List Byte) : List Byte := toLe 2 cmd ++ [1] ++ List.replicate 13 0 ++ args

/-- A mailbox whose command waits. -/
def busyBox (r : List Byte) : Mailbox := { Mailbox.reset with req := r, owner := 1, tag := 9, busy := true }

/-- A state whose mailbox 0 waits with a request. -/
def rung (s : State) (r : List Byte) : State := { s with mailboxes := s.mailboxes.set 0 (busyBox r) }

/-- `Claims.Ready` for mailbox 0, with one more condition, as a test. -/
def readyB (s : State) (cmd : Nat) (q : State → Bool) : Bool :=
  (s.mb 0).busy && fieldLe (s.mb 0).req 0 2 == cmd && !s.steward.fatal && s.smbusUp
    && (!s.steward.warmWait || decide (cmd ∈ [0x01, 0x02, 0x50, 0x51, 0x90])) && !s.waitsForLock 0 && q s

/-- A state that passes the test is ready. -/
theorem ready_of {s : State} {cmd : Nat} {q : State → Bool} (h : readyB s cmd q = true) : Claims.Ready s 0 cmd ∧ q s = true := by
  simp only [readyB, Bool.and_eq_true, Bool.or_eq_true, decide_eq_true_eq, Bool.not_eq_true', beq_iff_eq] at h
  obtain ⟨⟨⟨⟨⟨⟨h1, h2⟩, h3⟩, h4⟩, h5⟩, h6⟩, h7⟩ := h
  exact ⟨⟨h1, h2, h3, h4, h5, h6⟩, h7⟩

/-- A free mailbox, one that the host holds and one that is busy; a stored response and none; a request that fails check 1, and one
that passes. -/
theorem witness_MailboxProtocol :
    let s (b : Mailbox) : State := { State.reset with mailboxes := State.reset.mailboxes.set 0 b }
    let idle : Mailbox := { busyBox (req 0x01 []) with busy := false }
    (∀ ag ∈ ([.pcie, .smbus] : List Agent), State.reset.reaches 0 ag = true) ∧ (State.reset.mb 0).owner = 0 ∧
      ((s idle).mb 0).owner = agentNum .pcie ∧ ((s idle).mb 0).owner ≠ agentNum .smbus ∧ (State.reset.mb 0).owner ≠ agentNum .pcie ∧
      ((s (busyBox [])).mb 0).busy = true ∧ ((s { idle with stored := some (9, []) }).mb 0).stored = some (idle.tag, []) ∧
      ((s idle).mb 0).stored = none ∧ (s idle).checkRequest idle.req = none ∧ ((s idle).checkRequest (toLe 2 1)).isSome = true :=
  ⟨by decide, by decide, by decide, by decide, by decide, by decide, by decide, by decide, by decide, by decide⟩

/-- A command that only reads is ready in the acknowledgement wait. -/
theorem witness_ReadyInWait :
    readyB { rung State.reset (req 0x02 []) with steward := { Steward.reset with warmWait := true } } 0x02 (fun _ => true) = true := by
  decide

theorem witness_RegistersAndSmbus :
    State.reset.pcieUp = true ∧ State.reset.smbusUp = true ∧ State.reset.steward.standby = false ∧
      ({ State.reset with steward := { Steward.reset with smbAlert := true } } : State).steward.smbAlert = true ∧
      (0x21F : BitVec 16).toNat ≤ 0x21F := by
  decide

/-- A module that waits at ST1 for its recovery image: nothing written, a byte past the end short, and an image of 4 KiB. -/
theorem witness_Recovery :
    let w : Steward := { Steward.reset with stage := 1, recovery := [(0, 0x42), (1, 0x4F), (2, 0x4F), (3, 0x54), (5, 0x10)] }
    let s : State := { State.reset with steward := w, pins := { Pins.reset with bootSel := 1 } }
    let d : List Byte := toLe 4 (3 * 2 ^ 20 - 1) ++ [0xAA]
    s.recovering = true ∧ s.smbusUp = true ∧ s.steward.recoveryState = 0 ∧ Sparse.get 0 s.steward.recovery 5 = 0x10 ∧
      d.length = 5 ∧ fieldLe d 0 4 + (d.length - 4) = 3 * 2 ^ 20 ∧
      ({ s with steward := { w with recoveryState := 1 } } : State).recovering = true := by
  decide

/-- Mailbox 0 held over SMBus, idle and busy, and its offset at the doorbell. -/
theorem witness_SmbusWrites :
    let b : Mailbox := { Mailbox.reset with owner := 2 }
    (∀ x ∈ ([false, true] : List Bool), ({ b with busy := x }).owner = 2) ∧ b.busy = false ∧ b.req.length = 256 ∧
      ({ Steward.reset with smbOffset := 0x200 } : Steward).smbOffset = 0x200 ∧ (1 : Byte).getLsbD 0 = true := by
  exact ⟨by decide, rfl, List.length_replicate, rfl, by decide⟩

/-! ## Witnesses: the steward's commands -/

theorem witness_ReportAndSetCommands :
    ∀ n ∈ ([0x01, 0x02, 0x03, 0x90, 0x91, 0x71] : List Nat), readyB (rung State.reset (req n [])) n (fun _ => true) = true := by
  decide

/-- A module with core 0 and the steward's entry in service, an open session 5 and a replica 6. -/
def manned (rs : List Request) : State :=
  { State.reset with
    dispatch := (State.reset.dispatch.set 0 ⟨true, 2, 6, 0⟩)
    sessions := [(0, { Session.closed with state := 1 }), (6, { Session.closed with state := 1, replica := true })]
    requests := rs }

/-- SESSION_OPEN of an open session, and of a closed one for an owner out of service and in service. -/
theorem witness_SessionOpen :
    readyB (rung (manned []) (req 0x10 [0, 0, 0, 0])) 0x10 (fun s => (s.session 0).state != 0) = true ∧
    readyB (rung (manned []) (req 0x10 [1, 0, 0, 7])) 0x10 (fun s => (s.session 1).state == 0 && !(s.entry 7).en) = true ∧
    readyB (rung (manned []) (req 0x10 [1, 0, 0, 0])) 0x10 (fun s => (s.session 1).state == 0 && (s.entry 0).en) = true := by
  decide

/-- SESSION_CLOSE of a closed session, of an idle one and of one with a request taken. -/
theorem witness_SessionClose :
    readyB (rung (manned []) (req 0x11 [1, 0])) 0x11 (fun s => (s.session 1).state == 0) = true ∧
    readyB (rung (manned []) (req 0x11 [0, 0])) 0x11 (fun s => (s.session 0).state != 0 && (s.requestsOf 0).isEmpty) = true ∧
    readyB (rung (manned [request 1 (.taken 0 0)]) (req 0x11 [0, 0])) 0x11
      (fun s => (s.requestsOf 0).any fun r => !r.waiting && s.requests.all fun q => q.id != r.id || q == r) = true ∧
    readyB (rung (manned [request 1 .queued]) (req 0x11 [0, 0])) 0x11
      (fun s => (s.requestsOf 0).any fun r => r.waiting && r.runs != 0 && s.requests.all fun q => q.id != r.id || q == r) = true := by
  decide

/-- SESSION_MOVE in both modes, of an idle session and of one with a request taken; a record that awaits its outcome. -/
theorem witness_SessionMove :
    readyB (rung (manned []) (req 0x12 [0, 0, 0, 0])) 0x12 (fun s => (s.session 0).state != 0 && (s.entry 0).en
      && (s.requestsOf 0).all (·.queued_)) = true ∧
    readyB (rung (manned [request 1 (.taken 0 0)]) (req 0x12 [0, 0, 0, 0])) 0x12
      (fun s => (s.requestsOf 0).any fun r => !r.queued_) = true ∧
    readyB (rung (manned []) (req 0x12 [0, 0, 1, 0])) 0x12 (fun s => (s.session 0).state != 0 && !(s.session 0).replica
      && (s.requestsOf 0).isEmpty && !s.awaitsRecord 0) = true ∧
    readyB (rung (manned [request 1 .queued]) (req 0x12 [0, 0, 1, 0])) 0x12 (fun s => !(s.requestsOf 0).isEmpty) = true := by
  decide

theorem witness_Queries :
    (∀ n ∈ ([0x50, 0x51] : List Nat), readyB (rung (manned []) (req n [0, 0])) n (fun s => (s.session 0).state != 0) = true) ∧
    readyB (rung (manned []) (req 0x50 [1, 0])) 0x50 (fun s => (s.session 1).state == 0) = true := by
  decide

/-- An image of one section without bytes; bytes that are none; and an image for a core that serves. -/
def goodImage : List Byte := [0x4C, 0x49, 0x4D, 0x47] ++ toLe 2 1 ++ toLe 2 1 ++ List.replicate 376 0

theorem goodImage_length : goodImage.length = 384 := by
  simp only [goodImage, toLe, List.length_append, List.length_replicate, List.length_cons, List.length_nil]

theorem witness_ImageForm : State.reset.imageForm goodImage = true := by
  simp only [State.imageForm, goodImage_length]
  decide +kernel

theorem witness_ImageLoad :
    readyB (rung (manned []) (req 0x20 (List.replicate 16 0 ++ [1]))) 0x20 (fun s => (s.entry (ownerOf 0)).en
      && (s.core 0).run != .paddock && (fieldLe (s.mb 0).req 0x20 12).testBit 0) = true ∧
    readyB (rung (manned []) (req 0x20 (List.replicate 8 0 ++ toLe 4 384 ++ List.replicate 4 0 ++ [2]))) 0x20 (fun s => !(s.entry (ownerOf 1)).en
      && fieldLe (s.mb 0).req 0x20 12 == 2 && fieldLe (s.mb 0).req 0x18 4 == 384 && !s.imageForm []) = true := by
  decide

/-- KEY_SET of two pages with no claims, and of one whose JRN would change under a claim. -/
theorem witness_KeySet :
    let r := req 0x21 (toLe 8 mainBase ++ toLe 4 2 ++ [0x80, 0x20])
    readyB (rung State.reset r) 0x21 (fun s => s.yardA.claims.isEmpty && s.yardB.claims.isEmpty && (s.mb 0).progress == 0
      && !s.lostAt (attrAddr 0) && !s.lostAt (attrAddr 1)) = true ∧
    (∀ c : CoreId, (State.reset.core c).sbuf = []) ∧
    readyB (rung (withSegs [] [{ claim 1 with line := mainBase }] []) r) 0x21 (fun s => s.claimedPage 0
      && attrJrn (keyByte 0 0x80 0x20) != attrJrn (s.mem.byte (attrAddr 1))) = true := by
  decide

/-- QUEUE_CREATE: no CQ, an SQ that exists, a CQ that exists, and pairs with and without a new CQ. -/
theorem witness_QueueCreate :
    ∀ p ∈ ([([1, 1, 0], fun s => !(s.cqs[(1 : QueueId)]).valid), ([0, 0, 0], fun s => (s.sqs[(0 : QueueId)]).valid),
        ([1, 0, 1], fun s => !(s.sqs[(1 : QueueId)]).valid && (s.cqs[(0 : QueueId)]).valid),
        ([1, 1, 1], fun s => !(s.sqs[(1 : QueueId)]).valid && !(s.cqs[(1 : QueueId)]).valid),
        ([63, 0, 0], fun s => !(s.sqs[(63 : QueueId)]).valid && (s.cqs[(0 : QueueId)]).valid)] : List (List Byte × (State → Bool))),
      readyB (rung (served openSession []) (req 0x30 p.1)) 0x30 p.2 = true := by
  decide

/-- QUEUE_DELETE of an SQ without and with something fetched, of a CQ with and without its SQ. -/
theorem witness_QueueDelete :
    readyB (rung (served openSession []) (req 0x31 [0, 1])) 0x31 (fun s => (s.sqs[(0 : QueueId)]).valid && !s.fetchedFrom 0) = true ∧
    readyB (rung (served openSession [request 1 .queued]) (req 0x31 [0, 1])) 0x31 (fun s => s.fetchedFrom 0) = true ∧
    readyB (rung (served openSession []) (req 0x31 [0, 2])) 0x31 (fun s => (s.cqs[(0 : QueueId)]).valid && s.pairedSq 0 none) = true ∧
    readyB (rung { served openSession [] with sqs := State.reset.sqs } (req 0x31 [0, 2])) 0x31
      (fun s => (s.cqs[(0 : QueueId)]).valid && !s.pairedSq 0 none) = true := by
  decide

theorem witness_JournalStream :
    readyB (rung State.reset (req 0x60 [3, 1, 12])) 0x60 (fun s => (s.yard .a).stream.state != 1 && (s.yard .b).stream.state != 1) = true ∧
    readyB (rung (withRing .empty ⟨0, 12, 1, 0, 0, 0⟩) (req 0x60 [1, 1, 12])) 0x60 (fun s => (s.yard .a).stream.state == 1) = true ∧
    readyB (rung State.reset (req 0x60 [3, 0])) 0x60 (fun _ => true) = true := by
  decide

/-- MIRROR_PAIR of ports that have not paired and of one that has; its time over; MIRROR_FENCE below ST5 and from it on;
MIRROR_TAKEOVER of no session, of a replica on an unpaired module, and of a primary. -/
theorem witness_MirrorCommands :
    let paired : State := { State.reset with ports := State.reset.ports.set 1 { Port.reset with paired := true } }
    let started (s : State) : State := s.modMb 0 fun b => { b with started := true }
    let early : State := { State.reset with steward := { Steward.reset with stage := 4 } }
    (∀ s ∈ ([State.reset, paired] : List State), readyB (rung s (req 0x40 [3, 0, 10, 0])) 0x40
      (fun s => !(s.mb 0).started && !s.streamA.fenced && !s.streamB.fenced && !s.streamA.cut && !s.streamB.cut) = true) ∧
    readyB (started (rung State.reset (req 0x40 [3, 0, 10, 0]))) 0x40 (fun s => (s.mb 0).started && !(s.port 0).paired && !(s.port 1).paired) = true ∧
    readyB (rung early (req 0x41 [3, 1])) 0x41 (fun s => decide (s.steward.stage < 5)) = true ∧
    readyB (rung State.reset (req 0x41 [3, 1])) 0x41 (fun s => decide (5 ≤ s.steward.stage)) = true ∧
    readyB (rung (manned []) (req 0x42 [7, 0, 1, 0])) 0x42 (fun s => (s.namedSessions 7 1).isEmpty) = true ∧
    readyB (rung (manned []) (req 0x42 [6, 0, 1, 0])) 0x42 (fun s => s.namedSessions 6 1 == [6] && s.replica 6 && s.mayTake 6) = true ∧
    readyB (rung (manned []) (req 0x42 [0, 0, 1, 0])) 0x42 (fun s => s.namedSessions 0 1 == [0] && !s.replica 0) = true := by
  decide

/-- Marches of a core in paddock and of one in service; retire, release and restart. -/
theorem witness_CoreCommands :
    let parked := readyWith fun k => { k with run := .paddock }
    readyB (rung ready (req 0x70 [0, 0, 2, 0])) 0x70 (fun s => (s.core 0).run != .paddock) = true ∧
    readyB (rung ready (req 0x70 [0, 0, 2, 4])) 0x70 (fun s => (s.core 0).run != .paddock) = true ∧
    readyB (rung ready (req 0x70 [0, 0, 1, 4])) 0x70 (fun s => !(s.sheds[shedOf 0]).retained && !(s.core 0).paddockDue
      && (s.sheds[shedOf 0]).march.isNone) = true ∧
    readyB (rung parked (req 0x70 [0, 1, 3, 0])) 0x70 (fun s => (s.core 0).run == .paddock && !(s.core 0).paddockDue
      && !(s.sheds[shedOf 0]).retained && (s.sheds[shedOf 0]).march.isNone) = true ∧
    readyB (rung ready (req 0x70 [0, 1, 1, 0])) 0x70 (fun s => (s.core 0).run != .paddock) = true ∧
    readyB (rung { ready with dispatch := State.reset.dispatch.set 1 ⟨true, 2, 6, 0⟩ } (req 0x80 [0])) 0x80
      (fun s => (s.core 0).run != .paddock && decide ((1 : Owner) ≠ ownerOf 0) && (s.entry 1).en) = true ∧
    readyB (rung ready (req 0x81 [0])) 0x81 (fun s => (s.core 0).run != .paddock) = true ∧
    readyB (rung parked (req 0x81 [0])) 0x81 (fun s => (s.core 0).run == .paddock && (s.core 0).unrepaired.isEmpty
      && !(s.core 0).paddockDue && !(s.sheds[shedOf 0]).retained) = true ∧
    readyB (rung ready (req 0xF0 [0, 0])) 0xF0 (fun s => (s.core 0).run != .paddock && !(s.core 0).paddockDue) = true := by
  decide

/-- A warm restart; cold ones without a fuse level, with the level in force, with a higher one that the boot image reaches, and with one
that it does not. -/
theorem witness_RestartModule :
    ∀ p ∈ ([([1, 0, 0], 0, 0), ([2, 0, 0], 0, 0), ([2, 0, 3], 3, 3), ([2, 0, 4], 3, 4), ([2, 0, 4], 3, 3)] : List (List Byte × Nat × Nat)),
      readyB (rung { State.reset with steward := { Steward.reset with fuseLevel := p.2.1, imageLevel := p.2.2 } } (req 0xF0 p.1)) 0xF0
        (fun s => s.steward.fuseLevel == p.2.1 && s.steward.imageLevel == p.2.2) = true := by
  decide

/-! ## Witnesses: Halyard -/

/-- A frame that is its header alone: type, flags, ARG, and the CRC-32C of its first 60 bytes as computed by hand; LSEQ, ACKSEQ, LEN and
the state fields are zero. -/
def short (type flags : Nat) (arg crc : Nat) : FrameIn :=
  ⟨toLe 1 type ++ toLe 1 flags ++ toLe 14 0 ++ toLe 24 0 ++ toLe 8 arg ++ toLe 12 0 ++ toLe 4 crc, false⟩

/-- A DATA frame of one line and a HELLO frame. -/
def dataIn : FrameIn :=
  ⟨toLe 1 1 ++ toLe 11 0 ++ toLe 4 256 ++ toLe 44 0 ++ toLe 4 0x60B8A636 ++ List.replicate 256 0 ++ toLe 4 0 ++ toLe 4 256 ++ toLe 52 0
    ++ toLe 4 0x26D9DE10, false⟩

def helloIn : FrameIn := ⟨toLe 1 0x11 ++ toLe 11 0 ++ toLe 4 64 ++ toLe 44 0 ++ toLe 4 0x7E4DA5DA ++ toLe 8 0x1234 ++ toLe 52 0 ++ toLe 4 0x34245868,
  false⟩

/-- Ports 0 and 1 as given. -/
def withPorts (k q : Port) : State := { State.reset with ports := #v[k, q] }

/-- A paired port. -/
def pairedPort : Port := { Port.reset with linkUp := true, paired := true, inForce := true, partner := 0x1234 }

/-- Every frame is kept. -/
theorem witness_Frames :
    (∀ f ∈ ([short 2 0 0 0xB17C4D87, short 3 0 0x10006 0x7826DA79, short 4 0 0x10006 0x35E8D109, short 0x10 0 0 0x18340056,
      short 0x10 2 0 0x70B71B3E, short 0x12 0 0 0xF34348E0] : List FrameIn), frameKept f = true) ∧ frameKept dataIn = true ∧
    frameKept helloIn = true := by
  simp only [frameKept, checked32, crc32c_eq]
  refine ⟨?_, ?_, ?_⟩ <;> decide +kernel

/-- LSEQ 0 at, behind and ahead of the expectation; the flags of ACK and NAK; ARG and LEN of the frames; APP of a DATA frame. -/
theorem witness_HalyardReceives :
    let f := short 3 0 0x10006 0x7826DA79
    fieldLe f.bytes 0 1 = 3 ∧ (f.bytes.getD 1 0).getLsbD 1 = false ∧ fieldLe f.bytes 4 4 = 0 ∧ fieldLe f.bytes 0x28 2 = 6 ∧
      fieldLe f.bytes 0x2A 2 = 1 ∧ (0 - 1 : BitVec 32).getLsbD 31 = true ∧ (0 - 0xFFFFFFFF : BitVec 32).getLsbD 31 = false ∧
      ((short 0x10 2 0 0x70B71B3E).bytes.getD 1 0).getLsbD 1 = true ∧ fieldLe dataIn.bytes 0x28 8 = (pairedPort.inOf .a).app ∧
      fieldLe dataIn.bytes 0x0C 4 = 256 ∧ ((withPorts pairedPort Port.reset).port 0).paired = true ∧
      ((withPorts pairedPort Port.reset).port 0).notReady = false ∧ (manned []).namedSessions 6 1 = [6] ∧ ((manned []).session 6).replica = true := by
  decide

/-- An acknowledgement of the frames sent, up to the next LSEQ. -/
theorem witness_TakeAckseq :
    let f : FrameIn := ⟨toLe 8 0 ++ toLe 4 2, false⟩
    let a : BitVec 32 := BitVec.ofNat 32 (fieldLe f.bytes 8 4)
    let k : Port := { pairedPort with nextLseq := 2, replay := [(0, []), (1, [])] }
    k.waiting = [] ∧ before32 k.peerAck a = true ∧ before32 k.nextLseq a = false := by
  decide

theorem witness_ReservedFrame :
    let f := short 5 0 0 0xFCB246F7
    frameKept f = true ∧ (4 < fieldLe f.bytes 0 1 ∧ fieldLe f.bytes 0 1 < 0x10) ∧ pairedPort.linkUp = true := by
  simp only [frameKept, checked32, crc32c_eq]
  refine ⟨?_, ?_, ?_⟩ <;> decide +kernel

/-- A port in NOT-READY with its link up; and a stream that its one paired port carries, and none once that is gone. -/
theorem witness_LastPort :
    ({ pairedPort with paired := false, notReady := true } : Port).linkUp = true ∧
      ((withPorts pairedPort Port.reset).streamPort .a).isSome = true ∧ (withPorts { pairedPort with paired := false } Port.reset).streamPort .a = none := by
  decide

/-- A record that a paired port can send with exactly its credits. -/
theorem witness_DataFrameSend :
    let s := { withRing { Ring.empty with recs := [{ rec1 with acked := false }] } .off with
      ports := #v[pairedPort, Port.reset], streamA := { MirrorStream.reset with limit := 2 } }
    (s.port 0).paired = true ∧ (s.port 0).absent = false ∧ (s.port 0).waiting = [] ∧
      s.sendable 0 = some (.a, { rec1 with acked := false }) := by
  decide

/-- The eighth replay and the ninth; a port in NOT-READY; one in force and not paired, its partner present and absent. -/
theorem witness_HalyardSends :
    let k : Port := { pairedPort with replay := [(0, [])] }
    (∀ n ∈ ([7, 8] : List Nat), { k with replays := n }.paired = true ∧ { k with replays := n }.replay ≠ [] ∧
      { k with replays := n }.linkUp = true) ∧ (pairedPort.notReady = false ∧ pairedPort.paired = true) ∧
      ({ pairedPort with paired := false, notReady := true } : Port).linkUp = true ∧
      ∀ b ∈ ([true, false] : List Bool), let q : Port := { pairedPort with paired := false, absent := b }
        q.linkUp = true ∧ q.notReady = false ∧ q.paired = false ∧ q.inForce = true ∧ q.absent = b := by
  decide

/-- HELLO at a port in force with no serial asked, with the right one and with another; NOTREADY at a port paired and not; loss of link,
training, and a record that awaits its outcome. -/
theorem witness_HalyardPairing :
    fieldLe helloIn.bytes 0 1 = 0x11 ∧ BitVec.ofNat 64 (fieldLe helloIn.bytes 64 8) = (0x1234 : Word) ∧
      (∀ n ∈ ([0, 0x1234, 5] : List Nat), let k : Port := { pairedPort with paired := false, pserial := BitVec.ofNat 64 n }
        k.linkUp = true ∧ k.paired = false ∧ k.inForce = true ∧ k.notReady = false ∧
          (k.pserial = 0 ∨ k.pserial = 0x1234 ∨ k.pserial = 5)) ∧
      fieldLe (short 0x12 0 0 0xF34348E0).bytes 0 1 = 0x12 ∧ (pairedPort.linkUp = true ∧ pairedPort.paired = true) ∧
      (State.reset.port 0).linkUp = false ∧ State.reset.steward.standby = false ∧ State.reset.steward.stage ≠ 0 ∧
      (∃ e ∈ (withRing { Ring.empty with recs := [{ rec1 with acked := false }] } .off).unsettled .a, e.written = true) ∧
      (State.reset.stream .a).fenced = false ∧
      ({ State.reset with streamA := { MirrorStream.reset with cut := true } } : State).streamA.cut = true :=
  ⟨by decide, by decide, by decide, by decide, by decide, by decide, by decide, by decide, by decide, by decide, by decide⟩

/-! ## Witnesses: the steward -/

/-- A change of the steward at reset. -/
def stewardWith (f : Steward → Steward) : State := { State.reset with steward := f Steward.reset }

theorem witness_SingleFaults :
    (∀ b ∈ ([true, false] : List Bool), (stewardWith fun w => { w with standbyOut := b }).steward.fatal = false ∧
      (stewardWith fun w => { w with standbyOut := b }).steward.standbyOut = b) ∧
    (stewardWith fun w => { w with testing := some (1, 5) }).steward.testing = some (1, 5) ∧
    (ready.canIssue 0 = true ∧ (ready.core 0).watched = true ∧ ((withRequests [request 1 (.taken 0 0)]).core 0).watched = true ∧
      (withRequests [request 1 (.taken 0 0)]).canIssue 0 = true ∧
      (∃ r ∈ (withRequests [request 1 (.taken 0 0)]).requests, (r.takenBy (0 : CoreId).val).isSome = true) ∧
      ((readyWith fun k => { k with wait := some .descriptor }).core 0).watched = false) ∧
    ((3 : Fin 17), true) ∉ State.reset.steward.failedHops ∧ ((0 : Fin 30), (1 : BitVec 8)) ∉ State.reset.steward.lostPhases := by
  decide

/-- Hops that cut shed 0 off from the yards and nothing else, two that cut Yard A off from the Gate, and one that cuts nothing off. -/
theorem witness_HopsFailed :
    let cut (l : List (Fin 17 × Bool)) : State := stewardWith fun w => { w with failedHops := l }
    ((cut [(0, false), (1, true), (1, false), (2, true)]).centreCut = false ∧
        (cut [(0, false), (1, true), (1, false), (2, true)]).cutOff 0 .a = true) ∧
      (cut [(7, true), (7, false)]).centreCut = true ∧ (cut [(1, true)]).centreCut = false ∧ (∀ c, (cut [(1, true)]).cutOff c .a = false ∧ (cut [(1, true)]).cutOff c .b = false) := by
  decide

theorem witness_ClocksAndVoltages :
    State.reset.steering = true ∧ (State.reset.sheds[(0 : ShedId)]).retained = false ∧
      ((State.reset.modShed 0 fun x => { x with retained := true }).sheds[(0 : ShedId)]).retained = true ∧
      400 ≤ State.reset.shedFmax 0 := by
  refine ⟨by decide, by decide, by decide, ?_⟩
  simp only [State.shedFmax, State.fmax, State.sclkMax, Config.sclkLimit]
  generalize Config.part26 = b
  cases b <;> decide

/-- A shed throttled for 10 ms whose core 0 has a session, queued work or running work, and core 8 of a shed at its full clock. -/
def hot (rs : List Request) : State :=
  { manned rs with
    steward := { Steward.reset with policy := { Policy.default with sclkmax := 2000 } }
    sheds := (State.reset.sheds.set 0 { Shed.reset with throttled := 100 }).set 1 { Shed.reset with mhz := 2000 }
    dispatch := (State.reset.dispatch.set 0 ⟨true, 2, 6, 0⟩).set 8 ⟨true, 2, 6, 0⟩ }

theorem witness_ThrottleMigration :
    ∀ rs ∈ ([[], [request 1 .queued], [request 1 (.taken 0 0)]] : List (List Request)),
      (hot rs).steering = true ∧ (hot rs).mayMigrate 0 0 8 = true ∧ (hot rs).steward.moves = [] ∧
        ((hot rs).sheds[shedOf 8]).retained = false := by
  have h (rs : List Request) : (hot rs).shedFmax 0 = 2000 ∧ (hot rs).shedFmax 1 = 2000 := by
    simp only [State.shedFmax, State.fmax, State.sclkMax, Config.sclkLimit]
    generalize Config.part26 = b
    cases b <;> constructor <;> simp [hot, manned, Shed.reset]
  intro rs hr
  refine ⟨by fin_cases hr <;> decide, ?_, by fin_cases hr <;> decide, by fin_cases hr <;> decide⟩
  have h0 : (hot rs).throttled 0 = true := by
    rw [State.throttled, (h rs).1]; fin_cases hr <;> decide
  have h1 : (hot rs).throttled 1 = false := by
    rw [State.throttled, (h rs).2]; fin_cases hr <;> decide
  have h2 : (hot rs).mayTakeSessions 8 = true := by
    rw [State.mayTakeSessions, show shedOf 8 = 1 by decide, h1]; fin_cases hr <;> decide
  have h3 : (hot rs).load 8 = 0 := by fin_cases hr <;> decide
  have h4 : ((List.finRange 96).all fun c => shedOf c == 0 || !(hot rs).mayTakeSessions c || decide ((hot rs).load 8 ≤ (hot rs).load c)) = true := by
    simp [h3]
  rw [State.mayMigrate, h0, h2, h4]
  fin_cases hr <;> decide

/-- A migration in progress whose session is ready, and one whose session has a running request. -/
theorem witness_MigrationGoesOn :
    ∀ rs ∈ ([[], [request 1 (.taken 0 0)]] : List (List Request)),
      let s : State := { hot rs with steward := { (hot rs).steward with moves := [(0, 8, [0])] } }
      s.steering = true ∧ s.steward.moves.find? (·.1 == 0) = some (0, 8, [0]) ∧ (s.sheds[shedOf 8]).retained = false ∧
        ([0].all fun n => (s.requestsOf n).all Request.queued_) = rs.isEmpty := by
  decide

/-- One group over the limit with all cores in service, and with its own cores alone; a sensor at the trip point and below it. -/
theorem witness_SteeringEvents :
    let alone : State := { State.reset with cores := State.reset.cores.mapFinIdx fun i k _ => if i < 4 then k else { k with run := .paddock } }
    (∀ i, i < 24 → i ≠ 0 → ((401 :: List.replicate 25 400).getD i 0 ≤ 400)) ∧
      State.reset.inService (monitorCores 0) = 4 ∧ State.reset.inService (List.finRange 96) = 96 ∧
      alone.inService (monitorCores 0) = 4 ∧ alone.inService (List.finRange 96) = 4 ∧ State.reset.smbusUp = true ∧
      State.reset.lockHeld (State.reset.agingLocks (401 :: List.replicate 25 400)) = false ∧
      locksMeet State.reset.ownLocks (State.reset.agingLocks (401 :: List.replicate 25 400)) = false ∧
      (∀ c, (State.reset.core c).paddockDue = false) ∧ State.reset.steward.standby = false ∧ 5 ≤ State.reset.steward.stage ∧ State.reset.powered = true ∧
      (40 : Nat) ∉ State.reset.steward.setAside := by
  decide +kernel

/-- A group retired within the hour; a monitor set aside whose shed's other is above the limit; a sensor set aside; a module without its
steward's clock. -/
theorem witness_AgingHour :
    (stewardWith fun w => { w with agedAt := some State.reset.timer }).agedLately = true ∧ State.reset.agedLately = false ∧
      (stewardWith fun w => { w with setAside := [200] }).processLoss (0 :: 401 :: List.replicate 24 0) 0 = 401 ∧
      ({ State.reset with pins := { Pins.reset with refclk := false } } : State).smbusUp = false := by
  decide

/-- Each supply there and gone; a module in standby; resets asked for before and after the yards are initialised. -/
theorem witness_PowerAndReset :
    let dark : State := { State.reset with pins := { Pins.reset with vaux := false } }
    let still : State := { State.reset with pins := { Pins.reset with refclk := false } }
    let stood : State := { stewardWith (fun w => { w with standby := true }) with pins := { Pins.reset with pwrEn := false } }
    let early : State := { State.reset with yardA := { YardState.reset with initialised := false } }
    (dark.pins.vaux = false ∧ dark.pins.refclk = true) ∧ (still.pins.vaux = true ∧ still.pins.refclk = false) ∧
      (State.reset.pins.refclk = true ∧ State.reset.powered = true) ∧
      (stood.powered = false ∧ stood.pins.pwrEn = false ∧ stood.smbusUp = true ∧ stood.steward.standby = true) ∧
      (State.reset.pins.perst = false ∧ State.reset.steward.warmWait = false ∧
        (State.reset.yardA.initialised && State.reset.yardB.initialised) = true) ∧
      (early.powered = true ∧ (early.yardA.initialised && early.yardB.initialised) = false) ∧
      (∀ p ∈ ([.warm, .cold] : List PendingReset), (stewardWith fun w => { w with pendingReset := some p }).steward.pendingReset = some p) ∧
      (stewardWith fun w => { w with warmWait := true }).steward.warmWait = true := by
  decide

/-- Standby with and without VIN; a cold RESTART accepted; and a warm start that failed at ST1. -/
theorem witness_StandbyAndRestart :
    (∀ v ∈ ([true, false] : List Bool), let s : State :=
        { stewardWith (fun w => { w with standby := true }) with pins := { Pins.reset with pwrEn := false, vin := v } }
      s.pins.pwrEn = false ∧ s.smbusUp = true ∧ s.steward.standby = true ∧ s.pins.vin = v) ∧
    ((stewardWith fun w => { w with pendingReset := some .cold }).steward.pendingReset = some .cold ∧ State.reset.powered = true) ∧
    (let s := stewardWith fun w => { w with stage := 1, kind := .warm, bootFailed := true }
     s.steward.bootFailed = true ∧ s.steward.kind = .warm ∧ s.pins.perst = false) := by
  decide

/-- A warm start at ST1 with a policy block; an image on the external flash; one over SMBus that has not come. -/
theorem witness_St1 :
    (let s := stewardWith fun w => { w with stage := 1, kind := .warm, st1Done := false, policyBlock := some Policy.default }
     s.powered = true ∧ s.mayEnterSt1 = false ∧ s.steward.st1Done = false ∧ s.steward.bootFailed = false ∧ s.pins.bootSel = 0 ∧
       s.steward.policyBlock.isSome = true) ∧
    recoveryLen [0x42, 0x4F, 0x4F, 0x54, 0, 0x10, 0, 0] = some 4096 ∧ recoveryLen [0x42] = none ∧
    (∀ b ∈ ([1, 2] : List (BitVec 2)), let s := { stewardWith (fun w => { w with stage := 0 }) with pins := { Pins.reset with bootSel := b } }
      s.mayEnterSt1 = true ∧ s.pins.bootSel = b ∧ s.steward.recoveryState ≠ 3) := by
  decide

/-- The module at each stage, cold and warm, with a ring size that differs. -/
theorem witness_StartStages :
    (∀ b ∈ ([0, 2, 3] : List (BitVec 2)), let s := { stewardWith (fun w => { w with stage := 0 }) with pins := { Pins.reset with bootSel := b } }
      s.mayEnterSt1 = true ∧ s.pins.bootSel = b) ∧
    (∀ n ∈ ([1, 2, 3, 4, 5] : List Nat), ∀ k ∈ ([.cold, .warm] : List StartKind),
      let s := stewardWith fun w => { w with stage := n, kind := k, st1Done := true, policy := { Policy.default with ringlog := 11 } }
      s.atStage n = true ∧ s.steward.kind = k ∧ s.steward.st1Done = true ∧ s.steward.policy.ringlog ≠ s.steward.ringlog) ∧
    State.reset.pins.vaux = true ∧ State.reset.pins.pwrEn = true ∧ (State.reset.core 5).run ≠ .paddock ∧
      (bitsOf 5 [(5, 7, 1)] = [(7, 1)] ∧ bitsOf 5 [(6, 7, 1)] = []) ∧ ((manned []).entry (ownerOf 0)).en = true := by
  decide

/-! ## Witnesses: the whole module -/

theorem witness_NymelRoundTrip :
    (∀ i ∈ ([.add 5 (.l64 (l64 (reg 7) (mem 1) (imm 3))), .add 5 (.s16 7 1), .unassignedOpcode 5 (.s16 0 1 2)] : List Instr),
      i.wellFormed = true ∧ (encodeWords i).isSome = true) := by
  decide

/-- A memory with entries in its canonical form, and a step from it. -/
theorem witness_MemoryForm : (withSegs [] [] []).mem.wf ∧ ∃ t, step ready = .next t := ⟨by decide, _, rfl⟩

theorem witness_Numbered : Claims.Numbered { State.reset with requests := [request 0 .queued, request 1 .queued], nextReq := 2 } := by
  refine ⟨by decide, fun r hr => ?_⟩
  fin_cases hr <;> decide

theorem witness_InstructionFrame :
    (ready.core 0).delay = none ∧ ready.region 0x10000000000 = .main ∧ (ready.core 0).sbuf = [] ∧ ∃ d : Done, d.flow = .seq ∧ d.after = none :=
  ⟨by decide, by decide, by decide, { s := ready }, rfl, rfl⟩

/-- A register, a pair, the bank, a window and main memory, with an empty store buffer, with six entries in it, and in deterministic mode. -/
theorem witness_OperandWrites :
    let put (s : State) (w : BitVec 16) (n : Nat) : Bool := okay (s.putValue 0 (s.resolve 0 0 w n) n ⟨5, Tag.bin, none⟩)
    put tagged (reg 7) 8 = true ∧ put tagged (reg 8) 16 = true ∧
      (put tagged (mem 1) 8 = true ∧ tagged.region 0x2000 = .own) ∧ (put tagged (mem 4) 8 = true ∧ tagged.region 0x01080000 = .window ∧ (tagged.core 0).ports = []) ∧
      (put tagged (mem 3) 16 = true ∧ tagged.region 0x10000000000 = .main ∧ (tagged.core 0).sbuf = []) ∧
      put (tagged.modCore 0 fun k => { k with sbuf := (List.range 6).map fun i => ⟨mainBase + 64 * (i + 1), []⟩ }) (mem 3) 16 = true ∧
      (put (tagged.modCore 0 fun k => { k with corecfg := 0x1F, detSlot := true }) (mem 3) 8 = true ∧
        ((tagged.modCore 0 fun k => { k with corecfg := 0x1F, status := 0x10A }).core 0).det = true) := by
  decide

/-! ## The spec's worked examples, and corners -/

/-- The capability of 02, "the Teshby Junction fare pool". -/
theorem test_capability :
    let k := Cap.make 0xC1 3 0x010080000000 0x010080300000 0
    let t := Cap.make 0xC1 3 0x01007FFE0000 0x0100802E0000 0x010080001000
    k.high.toNat / 2 ^ 48 = 0xC130 ∧ t.high = 0xC13007E000170000 ∧ t.base = 0x01007FFE0000 ∧ t.top = 0x0100802E0000 := by
  decide

/-- Core 0 with C1 at 0x2000 and C2 at 0x3000, its fields there, after one instruction: bytes from C1 on. -/
def fieldAfter (i : Instr) (a b : List (Nat × Byte)) (n : Nat) : List Byte := ((after i (fields a b)).view 0).bytes 0x2000 n

/-- DADD that loses a digit (05, after Table 5.8): +950.00 and +62.50 in three bytes. -/
theorem test_dadd :
    let i : Instr := .dadd 0 (dec 2 2 0)
    fieldAfter i [(0x2000, 0x95), (0x2002, 0x0C)] [(0x3000, 0x06), (0x3001, 0x25), (0x3002, 0x0C)] 3 = [0x01, 0x25, 0x0C] ∧
      ((after i (fields [(0x2000, 0x95), (0x2002, 0x0C)] [(0x3000, 0x06), (0x3001, 0x25), (0x3002, 0x0C)])).core 0).flags.getLsbD 2 = true := by
  decide

/-- DMUL and DSRD of 05 Table 5.10. -/
theorem test_interest :
    fieldAfter (.dmul 0 (dec 7 3 0)) [(0x2004, 0x18), (0x2005, 0x09), (0x2006, 0x41), (0x2007, 0x5C)]
        [(0x3000, 0x08), (0x3001, 0x90), (0x3002, 0x41), (0x3003, 0x1C)] 8 = [0x00, 0x16, 0x11, 0x12, 0x30, 0x19, 0x56, 0x5C] ∧
      fieldAfter (.dsrd 0 (dec 4 7 0x3A)) []
        [(0x3001, 0x16), (0x3002, 0x11), (0x3003, 0x12), (0x3004, 0x30), (0x3005, 0x19), (0x3006, 0x56), (0x3007, 0x5C)] 5
        = [0x00, 0x16, 0x11, 0x12, 0x3C] := by
  decide

/-- DUNP to a nine-byte field with embedded sign and a ten-byte field with trailing sign (05, after Table 5.4). -/
theorem test_dunp :
    let b : List (Nat × Byte) := [(0x3001, 0x18), (0x3002, 0x09), (0x3003, 0x41), (0x3004, 0x5C)]
    fieldAfter (.dunp 0 (dec 8 4 0)) [] b 9 = [0x30, 0x30, 0x31, 0x38, 0x30, 0x39, 0x34, 0x31, 0xC5] ∧
      fieldAfter (.dunp 0 (dec 9 4 2)) [] b 10 = [0x30, 0x30, 0x31, 0x38, 0x30, 0x39, 0x34, 0x31, 0x35, 0x2B] := by
  decide

/-- The divide of 04 Table 4.3: quotient and remainder. -/
theorem test_divu :
    let s := readyWith fun k => { k.setG 5 151080350200 0 with status := 0xA }
    let t := after (.divu 0 (l64 (reg 6) (reg 5) (reg 7))) (s.modCore 0 fun k => k.setG 7 10000000 0)
    ((t.core 0).getG 6).val = 15108 ∧ (t.core 0).mh = 350200 := by
  decide

/-- ADD wraps to the least number and sets N and V. -/
theorem test_add :
    let t := after (.add 0 (.l64 (l64 (reg 7) (reg 3) (imm 1)))) ready
    ((t.core 0).getG 7).val = 0x8000000000000000 ∧ (t.core 0).flags &&& 0xF = 0b0110 ∧ (t.core 0).pcc.cursor = 0x1008 := by
  decide

/-- A write of G0 is discarded, and PCC moves on. -/
theorem test_movi_g0 :
    let t := after (.movi 0 0 5) ready
    (t.core 0).getG 0 = ⟨0, 0, none⟩ ∧ (t.core 0).pcc.cursor = 0x1002 := by
  decide

/-- The statement line of 06 Table 6.12, printed. -/
theorem test_edit :
    let pat : List (Nat × Byte) := [0x20, 0x15, 0x10, 0x2C, 0x10, 0x10, 0x10, 0x2C, 0x10, 0x10, 0x11, 0x2E, 0x10, 0x10, 0x13, 0x43, 0x52].mapIdx
      fun i b => (0x2000 + i, b)
    let s := (fields pat [(0x3001, 0x01), (0x3002, 0x20), (0x3003, 0x45), (0x3004, 0x0D)]).modCore 0 fun k =>
      { k.setG 5 17 0 with currency := 0x00000101000000A3 }
    ((after (.edit 0 (l64 (mem 1) (mem 2) 0x5004)) s).view 0).bytes 0x2000 17
      = [0x20, 0x20, 0x20, 0x20, 0x20, 0xA3, 0x31, 0x2C, 0x32, 0x30, 0x34, 0x2E, 0x35, 0x30, 0x20, 0x43, 0x52] := by
  decide

/-- A trap enters its vector one depth up (07 Table 7.1, R195). -/
theorem test_trap :
    let t := after (.trap 0 (l64 (imm 5) 0 0)) ready
    (t.core 0).depth = 1 ∧ (t.core 0).pcc.cursor = 0x20 * 37 ∧ (t.core 0).faddr = 0 := by
  decide

/-- Line 37,282 of 11's worked example: yard, number and the position of D2. -/
theorem test_yardLine : yardOf 0x010001234500 = .a ∧ yardLineAddr .a 37282 ≤ 0x010001234500 ∧ 0x010001234500 < yardLineAddr .a 37282 + 256 ∧
    roleAt 37282 6 = 4 := by
  decide

/-- The queue is first in, first out, and an idle module counts a nanosecond. -/
theorem test_step :
    (step { ready with pending := [.movi 0 1 5, .movi 0 1 6] } = exec (.movi 0 1 5) { ready with pending := [.movi 0 1 6] }) ∧
      (∃ t, step ready = .next t ∧ t.timer = 1) := ⟨rfl, _, rfl, rfl⟩

/-! ## Witnesses: core control space and the access checks -/

/-- `Claims.Reaches` as a test. -/
def reachesB (s : State) (opc len : Nat) (w : L64) (bad : Bool → Option (Nat × Nat × Nat)) : Bool :=
  s.canIssue 0 && (s.core 0).turn opc len w && (s.core 0).held.isNone && !((s.core 0).landFp.delay.map (·.annul)).getD false
    && ((s.modCore 0 Core.landFp).earlyFault 0 len (bad (s.core 0).landFp.delay.isSome)).isNone && guardOf w (s.core 0).landFp
    && (s.core 0).owedFault.isNone

/-- A state that passes the test reaches the checks. -/
theorem reaches_of {s : State} {opc len : Nat} {w : L64} {bad : Bool → Option (Nat × Nat × Nat)} (h : reachesB s opc len w bad = true) :
    Claims.Reaches s 0 opc len w bad := by
  simp only [reachesB, Bool.and_eq_true, Bool.not_eq_true', Option.isNone_iff_eq_none] at h
  obtain ⟨⟨⟨⟨⟨⟨h1, h2⟩, h3⟩, h4⟩, h5⟩, h6⟩, h7⟩ := h
  exact ⟨h1, h2, h3, h4, h5, h6, h7⟩

/-- `NOT` from C1, whose capability is given. -/
def loads (s : State) (cap : Cap) (q : State → Nat → Bool) : Bool :=
  let t := s.modCore 0 fun k => k.setC 1 cap
  reachesB t 0x00C 8 (l64 (reg 7) (mem 1) 0) (encDV.bad (l64 (reg 7) (mem 1) 0)) && (t.core 0).ports.isEmpty && q (t.fetched 0 8) cap.cursor.toNat

/-- Step 1 of a load, as a test. -/
def step1 (cap : Cap) (need : List Perm) : Bool :=
  let a := cap.cursor.toNat
  cap.valid && !cap.sealed && decide (max cap.base 0 ≤ a ∧ (a : Int) + 8 ≤ min cap.top (2 ^ 64)) && need.all cap.has

/-- A capability of permissions and bounds at an address. -/
def capAt (perms : Nat) (base top : Int) (a : Word) : Cap := { Cap.make perms 1 base top 0 with cursor := a }

/-- A load through no capability, a sealed one, below and past its bounds, without R, in core control space without SYS; of a
read-locked page of another key. -/
theorem witness_LoadAuthority :
    loads tagged Cap.null (fun _ _ => true) = true ∧
    loads tagged { at_ 0x2000 with high := setField allCap.high 48 4 15 } (fun _ _ => true) = true ∧
    loads tagged (capAt 0xFF 0x3000 0x4000 0x2000) (fun _ a => decide (a = 0x2000)) = true ∧
    loads tagged (capAt 0xFF 0x3000 0x4000 0x3FFC) (fun _ a => decide (a + 8 = 0x4004)) = true ∧
    loads tagged (capAt 0x7F 0 0x4000 0x2000) (fun _ _ => true) = true ∧
    loads tagged (capAt 0xFB 0 0x12000000000 0x02000808) (fun u a => u.region a == .ccs) = true ∧
    loads { tagged with mem := ⟨[(0x011FFE000000, 0x40)], tagged.mem.tags⟩ } (capAt 0xFB 0 0x12000000000 0x10000000000)
      (fun u a => decide (mainPages a 8 = [0]) && attrKey (u.pageByte 0 0) != 1 && attrRlk (u.pageByte 0 0)) = true ∧
    step1 (capAt 0xFB 0 0x12000000000 0x10000000000) [.r] = true := by
  decide

/-- An uninitialised word, a word of a tag no integer takes, a hole, core control space off its alignment, a bank in paddock, a yard cut
off, and a data-address match. -/
theorem witness_LoadRanks :
    loads ready (at_ 0x2000) (fun u a => Claims.readCause (u.core 0) (u.tagSeen 0 a) == some 1) = true ∧
    loads (readyMem [] [(0x400, 2)]) (at_ 0x2000) (fun u a => Claims.readCause { u.core 0 with status := 0x0E } (u.tagSeen 0 a) == some 5) = true ∧
    loads tagged (at_ 0x100000) (fun u a => u.region a == .none && Claims.readCause (u.core 0) (u.tagSeen 0 a) == none) = true ∧
    loads tagged (at_ 0x02000804) (fun u a => u.region a == .ccs && decide (a + 8 ≤ 0x02010000 ∧ a % 8 ≠ 0)) = true ∧
    loads (tagged.modCore 1 fun k => { k with run := .paddock }) (at_ 0x01080000) (fun u a => u.region a == .window
      && decide ((a - 0x01000000) / 0x80000 = 1) && (u.core 1).run == .paddock) = true ∧
    loads { tagged with steward := { Steward.reset with failedHops := [(1, true), (1, false)] } } (at_ 0x10000000000)
      (fun u a => u.region a == .main && u.cutOff 0 (yardOf a)) = true ∧
    loads (tagged.modCore 0 fun k => { k with dbgctl := 9, dam := 0x2003 }) (at_ 0x2000) (fun u a => u.region a == .own
      && (u.core 0).dbgctl.getLsbD 0 && (u.core 0).dbgctl.getLsbD 3 && decide ((u.core 0).depth = 0) && decide (a + 3 = 0x2003)) = true := by
  decide

/-- `MOV` to C1: without W, a page of another key, a word of another tag under TCHK 3, and a journaled page without JRN and without a
segment. -/
theorem witness_StoreRanks :
    let w := l64 (mem 1) (reg 1) 0
    let stores (s : State) (cap : Cap) (q : State → Nat → Bool) : Bool :=
      let t := s.modCore 0 fun k => k.setC 1 cap
      reachesB t 0x000 8 w (encDV.bad w) && (t.core 0).ports.isEmpty && q (t.fetched 0 8) cap.cursor.toNat
    let page (v : Byte) : State := { tagged with mem := ⟨[(0x011FFE000000, v)], tagged.mem.tags⟩ }
    stores tagged (capAt 0xBF 0 0x4000 0x2000) (fun _ _ => true) = true ∧
    stores tagged (capAt 0xFB 0 0x12000000000 0x10000000000) (fun u a => decide (mainPages a 8 = [0]) && attrKey (u.pageByte 0 0) != 1) = true ∧
    stores ((readyMem [] [(0x400, 2)]).modCore 0 fun k => { k with status := 0xE }) (at_ 0x2000)
      (fun u a => decide ((u.core 0).tchk = 3) && decide (u.tagSeen 0 a = 2 ∧ a % 8 = 0)) = true ∧
    stores (page 0x80) (capAt 0xFE 0 0x12000000000 0x10000000000) (fun u a => decide (mainPages a 8 = [0]) && attrJrn (u.attr 0)) = true ∧
    stores (page 0x80) (at_ 0x10000000000) (fun u _ => attrJrn (u.attr 0) && (u.writingSegment 0).isNone) = true ∧
    ((capAt 0xFE 0 0x12000000000 0x10000000000).has .jrn = false ∧ allCap.has .jrn = true) := by
  decide

/-- TAGGET off its alignment, TAS in core control space, and SFIL with a count of a wrong tag, one of 2^48, and a resume of none. -/
theorem witness_OtherChecks :
    (let w := l64 (reg 7) (mem 1) 0
     let t := tagged.modCore 0 fun k => k.setC 1 (at_ 0x2004)
     reachesB t 0x298 8 w (({ a := .d, b := .m, c := .unused } : Enc).bad w) = true ∧ (t.core 0).ports = []) ∧
    (let w := l64 (mem 1) (reg 1) 0
     let t := tagged.modCore 0 fun k => k.setC 1 (at_ 0x02000808)
     reachesB t 0x2D8 8 w (({ a := .w, b := .p, c := .unused } : Enc).bad w) = true ∧ (t.fetched 0 8).region 0x02000808 = .ccs) ∧
    (let w := l64 (mem 1) 0 0x6000
     let t (v : Word) (tag : Tag) (r : Word) : State := tagged.modCore 0 fun k => { k.setG 6 v tag with resume := r }
     let ok (s : State) : Bool := reachesB s 0x187 8 w (({ a := .w, b := .unused, c := .raw, zero := fun w => rawAux w == 0 } : Enc).bad w)
       && (((s.fetched 0 8).core 0).getG 6).mark.isNone
     rawCount w = 6 ∧ ok (t 3 2 0) = true ∧ ok (t 0x1000000000000 0 0) = true ∧ ok (t 0 0 64) = true) :=
  ⟨⟨by decide, by decide⟩, ⟨by decide, by decide⟩, by decide, by decide, by decide, by decide⟩

/-- A march of another core of the shed and of one's own; a bank below the depth, and one at it. -/
theorem witness_CoreControlSpace :
    (let s := ready.modShed 0 fun k => { k with march := some ⟨0, 5, 2⟩ }
     (s.sheds[shedOf 0]).march = some ⟨0, 5, 2⟩ ∧ (s.sheds[shedOf 1]).march = some ⟨0, 5, 2⟩) ∧
    (let k : Core := { core0 with depth := 2 }
     (1 : Fin 4) < k.depth ∧ k.depth ≤ (2 : Fin 4) ∧ k.depth < (3 : Fin 4)) ∧ (ready.core 0).ports = [] := by
  decide

end Sys2Proof.Tests
end

section
/-! Instruction words read back from their encoding, in both forms (03 R58 to R62, R81, Tables 3.1 to 3.4). -/

namespace Sys2Proof

/-- Bits 15 and 14 of a first halfword say whether it begins an L64 (03 R59). -/
theorem isLong_iff (h : BitVec 16) : isLong h = true ↔ h.getLsbD 15 = true ∧ h.getLsbD 14 = true := by
  simp only [isLong, beq_iff_eq, BitVec.toNat_eq, BitVec.extractLsb'_toNat, BitVec.getLsbD, Nat.testBit_eq_decide_div_mod_eq,
    Nat.shiftRight_eq_div_pow, decide_eq_true_eq]
  have := h.isLt
  change _ = 3 ↔ _
  omega

/-- Four halfwords that begin with an L64's first are its opcode and fields (03 Table 3.4). -/
theorem decodeWords_longHalf (c : CoreId) (opc : BitVec 10) (w : L64) (rest : List (BitVec 16)) :
    decodeWords c (longHalf opc w :: w.sa :: w.sb :: w.sc :: rest) = some (decodeOpcode c opc w, rest) := by
  have guard : BitVec.getLsbD (3#2 ++ w.gp ++ BitVec.ofBool w.gi ++ opc) 10 = w.gi := by
    cases w.gi <;> simp (disch := decide) only [BitVec.getLsbD_append] <;> rfl
  simp (disch := decide) only [decodeWords, isLong, longHalf, BitVec.extractLsb'_append_eq_of_le,
    BitVec.extractLsb'_append_eq_of_add_le, Nat.reduceSub, BitVec.extractLsb'_eq_self, guard]
  rfl

/-- A halfword of form 0b00 stands alone and spells its register-to-register operation (03 Table 3.1). -/
theorem decodeWords_aluHalf (c : CoreId) (op : BitVec 6) (rd rs : BitVec 4) (rest : List (BitVec 16)) :
    decodeWords c (aluHalf op rd rs :: rest) = some (decodeAlu c op rd rs, rest) := by
  simp (disch := decide) only [decodeWords, isLong, decodeS16, aluHalf, BitVec.extractLsb'_append_eq_of_le,
    BitVec.extractLsb'_append_eq_of_add_le, Nat.reduceSub, BitVec.extractLsb'_eq_self]
  rfl

/-- An S16 operation that Table 3.2 does not assign spells an unassigned opcode (03 R62). -/
theorem decodeAlu_unassigned (c : CoreId) (op : BitVec 6) (rd rs : BitVec 4) (h : op = 0 ∨ 0x17 ≤ op.toNat) :
    decodeAlu c op rd rs = .unassignedOpcode c (.s16 op rd rs) := by
  have h : op.toNat = 0 ∨ 0x17 ≤ op.toNat := h.imp_left fun e => by rw [e]; rfl
  unfold decodeAlu
  split
  case h_23 => rfl
  all_goals omega

/-- The halfword of an S16 form stands alone and is read back as that form. -/
theorem decodeWords_shortForm (i : Instr) (hw : i.wellFormed) (c : CoreId) (h : BitVec 16) (rest : List (BitVec 16))
    (hi : shortForm i = some (c, h)) : decodeWords c (h :: rest) = some (i, rest) := by
  revert hi
  fun_cases shortForm i <;> rintro ⟨⟩
  case case23 op rd rs =>
    rw [decodeWords_aluHalf, decodeAlu_unassigned]
    simpa [Instr.wellFormed, Unassigned.ok] using hw
  case case24 | case25 | case26 | case27 | case28 =>
    simp (disch := decide) only [decodeWords, isLong, decodeS16, decodeShort, BitVec.extractLsb'_append_eq_of_le,
      BitVec.extractLsb'_append_eq_of_add_le, Nat.reduceSub, BitVec.extractLsb'_eq_self, BitVec.getLsbD_append,
      if_pos, if_neg, BitVec.getLsbD_ofBool] <;> rfl
  all_goals exact decodeWords_aluHalf ..

/-- A well-formed instruction is read back from its halfwords, whatever follows them. -/
theorem decodeWords_encodeWords (i : Instr) (c : CoreId) (ws rest : List (BitVec 16)) (hw : i.wellFormed = true)
    (he : encodeWords i = some (c, ws)) : decodeWords c (ws ++ rest) = some (i, rest) := by
  unfold encodeWords at he
  split at he
  next c' opc w hl =>
    cases he
    exact (decodeWords_longHalf c opc w rest).trans (by rw [decodeOpcode_longForm i hw c opc w hl])
  next =>
    obtain ⟨⟨c', h⟩, hs, he⟩ := Option.map_eq_some_iff.mp he
    cases he
    exact decodeWords_shortForm i hw c h rest hs

/-- The decoder takes three halfwords after the first of an L64, and none after an S16 (03 R59). -/
theorem decodeWords_rest (c : CoreId) (h : BitVec 16) (ws rest : List (BitVec 16)) (i : Instr)
    (hd : decodeWords c (h :: ws) = some (i, rest)) :
    ∃ own, ws = own ++ rest ∧ own.length = if isLong h then 3 else 0 := by
  simp only [decodeWords] at hd
  split at hd
  next hl =>
    split at hd
    next sa sb sc more =>
      cases hd
      exact ⟨[sa, sb, sc], rfl, by rw [if_pos hl]; rfl⟩
    next => cases hd
  next hl =>
    cases hd
    exact ⟨[], rfl, by rw [if_neg hl]; rfl⟩

/-- Settles O52: each form is read back, and the first halfword alone says how many are taken. -/
theorem nymelRoundTrip : Obligations.NymelRoundTrip := by
  refine ⟨decodeWords_encodeWords, fun c h ws rest i hd => ?_⟩
  obtain ⟨own, rfl, hlen⟩ := decodeWords_rest c h ws rest i hd
  simp only [← isLong_iff, ← hlen, List.take_left, List.length_append, Nat.add_comm, and_self]

end Sys2Proof
end

section
/-! What taking an exception saves and where it goes, the trap, and the unassigned opcodes (07 R188, R195, Tables 7.1, 7.2, 7.4; 03 R62,
R82). -/

namespace Sys2Proof.Machine

open Sys2Proof

/-! ## Results that land -/

/-- Landing every result still due changes banks and FPCTL and leaves none due (04 R129). -/
theorem Core.landFp_eq (k : Core) : k.landFp = { k with banks := k.landFp.banks, fpctl := k.landFp.fpctl, fpq := [] } := by
  have fold : ∀ (q : List FpDue) (k : Core),
      q.foldl Core.landOne k = { k with banks := (q.foldl Core.landOne k).banks, fpctl := (q.foldl Core.landOne k).fpctl } := by
    intro q
    induction q with
    | nil => exact fun _ => rfl
    | cons d q ih => exact fun k => by rw [List.foldl_cons, ih (k.landOne d)]; rfl
  unfold Core.landFp
  rw [fold k.fpq k]

/-- Landing the product changes MH and ML and leaves none outstanding (04 R106). -/
theorem Core.landProduct_eq (k : Core) :
    k.landProduct = { k with mh := k.landProduct.mh, ml := k.landProduct.ml, product := none } := by
  unfold Core.landProduct
  split
  next h => rw [← h]
  next => rfl

@[simp] theorem Core.landFp_shadows (k : Core) : k.landFp.shadows = k.shadows := by rw [Core.landFp_eq]
@[simp] theorem Core.landFp_status (k : Core) : k.landFp.status = k.status := by rw [Core.landFp_eq]
@[simp] theorem Core.landFp_resume (k : Core) : k.landFp.resume = k.resume := by rw [Core.landFp_eq]
@[simp] theorem Core.landFp_cause (k : Core) : k.landFp.cause = k.cause := by rw [Core.landFp_eq]
@[simp] theorem Core.landFp_faddr (k : Core) : k.landFp.faddr = k.faddr := by rw [Core.landFp_eq]
@[simp] theorem Core.landFp_hpcc (k : Core) : k.landFp.hpcc = k.hpcc := by rw [Core.landFp_eq]
@[simp] theorem Core.landFp_hdcc (k : Core) : k.landFp.hdcc = k.hdcc := by rw [Core.landFp_eq]
@[simp] theorem Core.landFp_delay (k : Core) : k.landFp.delay = k.delay := by rw [Core.landFp_eq]
@[simp] theorem Core.landFp_product (k : Core) : k.landFp.product = k.product := by rw [Core.landFp_eq]

@[simp] theorem Core.landProduct_shadows (k : Core) : k.landProduct.shadows = k.shadows := by rw [Core.landProduct_eq]
@[simp] theorem Core.landProduct_status (k : Core) : k.landProduct.status = k.status := by rw [Core.landProduct_eq]
@[simp] theorem Core.landProduct_resume (k : Core) : k.landProduct.resume = k.resume := by rw [Core.landProduct_eq]
@[simp] theorem Core.landProduct_cause (k : Core) : k.landProduct.cause = k.cause := by rw [Core.landProduct_eq]
@[simp] theorem Core.landProduct_faddr (k : Core) : k.landProduct.faddr = k.faddr := by rw [Core.landProduct_eq]
@[simp] theorem Core.landProduct_hpcc (k : Core) : k.landProduct.hpcc = k.hpcc := by rw [Core.landProduct_eq]
@[simp] theorem Core.landProduct_hdcc (k : Core) : k.landProduct.hdcc = k.hdcc := by rw [Core.landProduct_eq]
@[simp] theorem Core.landProduct_delay (k : Core) : k.landProduct.delay = k.delay := by rw [Core.landProduct_eq]
@[simp] theorem Core.landProduct_product (k : Core) : k.landProduct.product = none := by rw [Core.landProduct_eq]

/-! ## Entry to a vector -/

/-- CAUSE holds the code, the vector and the operand number side by side (07 R188). -/
theorem causeWord_toNat (e : ExcOperand) :
    (causeWord e).toNat = e.code.toNat + e.vec.val * 0x10000 + e.opnd.toNat * 0x400000 := by
  have := e.code.isLt; have := e.vec.isLt; have := e.opnd.isLt
  rw [causeWord, BitVec.toNat_ofNat]
  omega

section Entry

variable (k : Core) (d : Fin 4) (e : ExcOperand) (slot : Nat)

@[simp] theorem Core.enterAt_depth : (k.enterAt d e slot).depth = d := rfl
@[simp] theorem Core.enterAt_cause : (k.enterAt d e slot).cause = causeWord e := rfl
@[simp] theorem Core.enterAt_faddr : (k.enterAt d e slot).faddr = e.faddr := rfl
@[simp] theorem Core.enterAt_resume : (k.enterAt d e slot).resume = 0 := rfl
@[simp] theorem Core.enterAt_resv : (k.enterAt d e slot).resv = none := rfl
@[simp] theorem Core.enterAt_fpq : (k.enterAt d e slot).fpq = [] := rfl

@[simp] theorem Core.enterAt_product : (k.enterAt d e slot).product = none :=
  (Core.landFp_product _).trans (Core.landProduct_product k)

theorem Core.enterAt_status :
    (k.enterAt d e slot).status = setBit (setBit k.status 0 false) 6 false := by
  simp [Core.enterAt]

/-- Interrupts are off once an exception is entered (07 R195). -/
theorem Core.enterAt_ie : (k.enterAt d e slot).status.getLsbD 0 = false := by
  simp [Core.enterAt_status, setBit]

/-- The handler's own STATUS stands in no delay slot (07 R195). -/
theorem Core.enterAt_bds : (k.enterAt d e slot).status.getLsbD 6 = false := by
  simp [Core.enterAt_status, setBit]

/-- The bank that is entered stands at the vector under HPCC (07 R195). -/
@[simp] theorem Core.enterAt_pcc :
    (k.enterAt d e slot).pcc = k.hpcc.withCursor (0x20 * e.vec.val : Nat) := by
  simp [Core.enterAt, Core.pcc, Core.bank, Nat.mul_comm]

/-- C15 of the bank that is entered is HDCC (07 R195). -/
@[simp] theorem Core.enterAt_getC_15 : (k.enterAt d e slot).getC 15#4 = k.hdcc := by
  simp [Core.enterAt, Core.getC, Core.bank]

/-- Entry changes no bank but the one it enters; the results due have landed there. -/
theorem Core.enterAt_banks_ne {d' : Fin 4} (h : d' ≠ d) :
    (k.enterAt d e slot).banks[d'] = k.landProduct.landFp.banks[d'] := by
  have index : d.val ≠ d'.val := fun q => h (Fin.ext q.symm)
  simp [Core.enterAt, Vector.getElem_set_ne, index]

/-- The context saved at entry outside a delay slot (07 Table 7.4); S_TPCC keeps its value (log entry 22). -/
theorem Core.enterAt_shadow_of_no_delay (hd : k.delay = none) :
    (k.enterAt d e slot).shadows[d] =
      let l := k.landProduct.landFp
      { pcc := l.pcc, tpcc := k.shadows[d].tpcc, status := setBit l.statusRead 6 false, pred := l.bank.p, resume := k.resume
        cause := k.cause, faddr := k.faddr, mh := l.mh, ml := l.ml, skip := 0 } := by
  simp [Core.enterAt, hd]

/-- The context saved at entry from a delay slot: BDS, and the transfer's target or the instruction after the slot (07 R199). -/
theorem Core.enterAt_shadow_of_delay {dl : Delay} (hd : k.delay = some dl) (hs : slot ≠ 0) :
    (k.enterAt d e slot).shadows[d] =
      let l := k.landProduct.landFp
      { pcc := l.pcc, tpcc := l.slotTarget dl slot, status := setBit l.statusRead 6 true, pred := l.bank.p, resume := k.resume
        cause := k.cause, faddr := k.faddr, mh := l.mh, ml := l.ml, skip := 0 } := by
  obtain ⟨n, rfl⟩ := Nat.exists_eq_succ_of_ne_zero hs
  simp [Core.enterAt, hd]

end Entry

/-- The part of O8 on entry outside a delay slot. -/
theorem exceptionEntry : Claims.ExceptionEntry := by
  refine fun k e => ⟨fun h hd => ?_, fun h slot => Core.takeExc_top k e slot (by omega)⟩
  have other : k.depth ≠ (⟨k.depth.val + 1, by omega⟩ : Fin 4) := fun q => by simpa using congrArg Fin.val q
  simp [Core.takeExc_below k e 0 h, Core.enterAt_shadow_of_no_delay k _ e 0 hd, Core.enterAt_banks_ne k _ e 0 other, Core.enterAt_ie,
    causeWord_toNat, -BitVec.getLsbD_eq_getElem]

/-! ## An exception raised by an instruction -/

/-- Whether the next single step is skipped plays no part in what lands. -/
theorem Core.landed_stepSkip (k : Core) (b : Bool) :
    ({ k with stepSkip := b } : Core).landProduct.landFp = { k.landProduct.landFp with stepSkip := b } := by
  have product : ({ k with stepSkip := b } : Core).landProduct = { k.landProduct with stepSkip := b } := by
    simp only [Core.landProduct]
    split <;> rfl
  have fold : ∀ (q : List FpDue) (k : Core),
      q.foldl Core.landOne { k with stepSkip := b } = { q.foldl Core.landOne k with stepSkip := b } := by
    intro q
    induction q with
    | nil => exact fun _ => rfl
    | cons d q ih => exact fun k => ih (k.landOne d)
  rw [product]
  simp only [Core.landFp, fold]

/-- Nor in what entry saves and installs. -/
theorem Core.takeExc_stepSkip (k : Core) (b : Bool) (e : ExcOperand) (slot : Nat) :
    ({ k with stepSkip := b } : Core).takeExc e slot = { k.takeExc e slot with stepSkip := b } := by
  unfold Core.takeExc
  dsimp only
  split
  · simp only [Core.enterAt, Core.landed_stepSkip]
    rfl
  · rfl

/-- Telling the steward that a core has stopped marks the stop and changes nothing else of the core. -/
theorem State.noteStop_core (s : State) (c : CoreId) : ∃ st, (s.noteStop c).core c = { s.core c with stop := st } := by
  unfold State.noteStop
  split
  · exact ⟨_, State.core_modCore ..⟩
  · exact ⟨(s.core c).stop, rfl⟩

/-- An instruction that raises leaves its core as taking the exception does, but for the single step and the note of a stop. -/
theorem State.raise_core (s : State) (c : CoreId) (len : Nat) (e : ExcOperand) :
    ∃ st, (s.raise c len e).core c =
      { (s.core c).takeExc e ((s.core c).slotLen len) with stepSkip := false, stop := st } := by
  obtain ⟨st, h⟩ := State.noteStop_core
    (s.modCore c fun k => ({ k with stepSkip := false } : Core).takeExc e (k.slotLen len)) c
  exact ⟨st, by rw [State.raise, h, State.core_modCore, Core.takeExc_stepSkip]⟩

/-- The part of O8 on entry from a delay slot. -/
theorem entryFromADelaySlot : Claims.EntryFromADelaySlot := by
  intro s c len e d k hk hd hlen
  have slot : k.slotLen len = len := by simp [Core.slotLen, hd]
  obtain ⟨st, hx⟩ := State.raise_core s c len e
  rw [Core.takeExc_below k e _ hk, slot] at hx
  have saved := Core.enterAt_shadow_of_delay k ⟨k.depth.val + 1, by omega⟩ e len hd hlen
  simp only [hx]
  exact ⟨rfl, rfl, congrArg Shadow.pcc saved, congrArg Shadow.status saved, congrArg Shadow.tpcc saved,
    Core.enterAt_bds k _ e len, congrArg Shadow.skip saved, Core.enterAt_pcc k _ e len⟩

/-! ## The trap and the unassigned opcodes -/

/-- The part of O8 on `TRAP`. -/
theorem trapEntersItsVector : Claims.TrapEntersItsVector := fun _ w _ u h =>
  congrArg Host.Outcome.next
    (State.issueL_passes (d := { s := u, after := some (plainExc (32 + (specNum w.sa).toNat) 0 0) }) h rfl)

/-- What the encoding raises is found once ranks 1 and 2 find nothing (07 Table 7.2), at the instruction's own address. -/
theorem State.earlyFault_encoding {s : State} {c : CoreId} {len : Nat} (debug : (s.core c).debugFault = none)
    (fetch : s.fetchFault c len = none) (n vec code : Nat) :
    s.earlyFault c len (some (n, vec, code)) =
      some ⟨Fin.ofNat 64 vec, BitVec.ofNat 16 code, BitVec.ofNat 2 n, (s.core c).pcc.cursor⟩ := by
  simp [State.earlyFault, debug, fetch, operandExc, word]

/-- An instruction that has not begun and meets a fault of ranks 1 to 4 raises it, whatever its guard, operands and body. -/
theorem State.issue_early {s : State} {c : CoreId} {opc len : Nat} {w : L64} {bad guard check uses} {body : Body} {e : ExcOperand}
    (runs : s.canIssue c = true) (turn : (s.core c).turn opc len w = true) (held : (s.core c).held = none)
    (slot : (((s.modCore c Core.landFp).core c).delay.map (·.annul)).getD false = false)
    (early : (s.modCore c Core.landFp).earlyFault c len (bad (s.core c).landFp.delay.isSome) = some e) :
    s.issue c opc len w bad guard check uses body =
      ((s.modCore c Core.landFp).raise c len e).noteAhead (s.modCore c Core.landFp) c len true false := by
  rw [State.core_modCore] at slot
  simp only [State.issue, runs, turn, Bool.not_true, Bool.or_self, Bool.false_eq_true, if_false, State.core_modCore, slot,
    Core.landFp_held, held, Option.isNone_none, if_true, early]

/-- The part of O8 on unassigned opcodes. -/
theorem unassignedOpcodeTrap : Claims.UnassignedOpcodeTrap := by
  refine ⟨fun c op rd rs rest h => ?_, fun c u s => ?_⟩
  · rw [← decodeAlu_unassigned c op rd rs h]
    exact decodeWords_aluHalf c op rd rs rest
  · intro len code l runs held raising slot debug fetch
    have turn (len : Nat) (w : L64) : (s.core c).turn 0x404 len w = true := by simp [Core.turn, raising, held]
    refine congrArg Host.Outcome.next ?_
    cases u with
    | s16 op rd rs => exact State.issue_early runs (turn ..) held slot (State.earlyFault_encoding debug fetch ..)
    | l64 opc w =>
      have same : code = BitVec.ofNat 16 (if opc = 0x3FF then 3 else 2) := by simp only [code]; split <;> rfl
      rw [same]
      exact State.issue_early runs (turn ..) held slot (State.earlyFault_encoding debug fetch ..)

/-- Settles O8, part by part. -/
theorem exceptionsTaken : Obligations.ExceptionsTaken :=
  ⟨trapEntersItsVector, unassignedOpcodeTrap, exceptionEntry, entryFromADelaySlot⟩

end Sys2Proof.Machine
end

section
/-! The integer instructions of three operands and `NEG`: results on exact integers, FLAGS, and INTEGER_OVERFLOW (04 R98 to R102). -/

namespace Sys2Proof.Machine

open Sys2Proof

/-! ## FLAGS -/

/-- Setting or clearing a bit changes that bit alone. -/
@[simp] theorem getLsbD_setBit {w : Nat} (x : BitVec w) {i : Nat} (b : Bool) (j : Nat) (hi : i < w) :
    (setBit x i b).getLsbD j = if j = i then b else x.getLsbD j := by
  have one : (1#w <<< i).getLsbD j = decide (i = j) := by
    rw [← BitVec.twoPow_eq, BitVec.getLsbD_twoPow, decide_eq_true hi, Bool.true_and]
  unfold setBit
  by_cases hj : j = i
  · subst hj; cases b <;> simp [hi]
  · have within : x.getLsbD j = true → j < w := BitVec.lt_of_getLsbD
    cases b with
    | false => simpa [one, hj, Ne.symm hj, -BitVec.getLsbD_shiftLeft] using within
    | true => simp [one, hj, Ne.symm hj, -BitVec.getLsbD_shiftLeft]

/-- A result of the statements, as the operations of the model give it. -/
def flaggedOf (q : Claims.IntResult) : Flagged := ⟨q.1, q.2.1, q.2.2⟩

/-- What a result makes of FLAGS, bit by bit (04 R98, Table 4.1). -/
theorem flagsAfter_setFlags (f : Word) (q : Claims.IntResult) : Claims.FlagsAfter f (setFlags f (flaggedOf q)) q := by
  obtain ⟨r, v, c⟩ := q
  have above (i : Nat) (hi : 4 ≤ i) : i ≠ 0 ∧ i ≠ 1 ∧ i ≠ 2 ∧ i ≠ 3 := by omega
  unfold Claims.FlagsAfter setFlags
  cases v <;> cases c <;> simp +contextual [flaggedOf, above, -BitVec.getLsbD_eq_getElem]

/-- The bits that a result gives FLAGS determine them. -/
theorem eq_setFlags_of_flagsAfter {f new : Word} {q : Claims.IntResult} (h : Claims.FlagsAfter f new q) :
    new = setFlags f (flaggedOf q) := by
  obtain ⟨n0, n1, n2, n3, above⟩ := h
  obtain ⟨m0, m1, m2, m3, above'⟩ := flagsAfter_setFlags f q
  apply BitVec.eq_of_getLsbD_eq
  intro i _
  match i with
  | 0 => rw [n0, m0]
  | 1 => rw [n1, m1]
  | 2 => rw [n2, m2]
  | 3 => rw [n3, m3]
  | i + 4 => rw [above _ (by omega), above' _ (by omega)]

/-! ## Results on exact integers -/

/-- Addition with carry in is addition of exact integers (04 R99). -/
theorem addFlags_eq (x y : Word) (cin : Bool) : addFlags x y cin = flaggedOf (Claims.sum cin x y) := by
  simp only [addFlags, flaggedOf, Claims.sum, Flagged.mk.injEq, outside, sval]
  refine ⟨?_, ?_, trivial⟩
  · simp [BitVec.ofNat_add]
  · cases cin <;> simp

/-- Subtraction with borrow in is subtraction of exact integers (04 R99). -/
theorem subFlags_eq (x y : Word) (cin : Bool) : subFlags x y cin = flaggedOf (Claims.difference cin x y) := by
  have result (i : Nat) : BitVec.ofInt 64 (x.toNat - y.toNat - i) = x - y - BitVec.ofNat 64 i := by
    simp only [Int.sub_eq_add_neg, BitVec.ofInt_add, BitVec.ofInt_neg, BitVec.ofInt_natCast, BitVec.ofNat_toNat, BitVec.setWidth_eq,
      BitVec.sub_eq_add_neg]
  have borrow (i : Nat) : ((x.toNat : Int) - y.toNat - i < 0) ↔ x.toNat < y.toNat + i := by omega
  cases cin
  · exact congrArg₂ (fun r c => Flagged.mk r _ (some c)) (result 0) (decide_eq_decide.2 (borrow 0))
  · exact congrArg₂ (fun r c => Flagged.mk r _ (some c)) (result 1) (decide_eq_decide.2 (borrow 1))

/-- A shift is known from its counts of 0, of up to 63, and of more. -/
theorem eq_flaggedOf_shifted {q : Flagged} {r out : Word → Nat → Word} {bit : Nat} {x y : Word}
    (still : y.toNat = 0 → q = ⟨r x 0, none, none⟩)
    (within : y.toNat ≠ 0 → y.toNat ≤ 63 → q = ⟨r x y.toNat, none, some ((out x (y.toNat - 1)).getLsbD bit)⟩)
    (past : 63 < y.toNat → q = ⟨r x 64, none, some (y.toNat == 64 && (out x 63).getLsbD bit)⟩) :
    q = flaggedOf (Claims.shifted r out bit x y) := by
  have zero : y = 0 ↔ y.toNat = 0 := BitVec.toNat_inj.symm
  simp only [flaggedOf, Claims.shifted, zero]
  by_cases h0 : y.toNat = 0
  · simp [still h0, h0]
  · by_cases h63 : y.toNat ≤ 63
    · rw [within h0 h63, if_neg h0, Nat.min_eq_left (by omega), decide_eq_true (by omega), Bool.true_and]
    · have last : decide (y.toNat ≤ 64) = (y.toNat == 64) := by
        rw [Bool.eq_iff_iff, decide_eq_true_iff, beq_iff_eq]; omega
      rw [past (by omega), if_neg h0, Nat.min_eq_right (by omega), last]

/-- `SHL` moves a word up and leaves in C the last bit moved out at the top (04 R101). -/
theorem shlFlags_eq (x y : Word) :
    shlFlags x y = flaggedOf (Claims.shifted (fun x n => x <<< n) (fun x n => x <<< n) 63 x y) := by
  refine eq_flaggedOf_shifted (fun h0 => ?_) (fun h0 h => ?_) fun h => ?_
  · simp [shlFlags, h0]
  · have out : (x <<< (y.toNat - 1)).getLsbD 63 = x.getLsbD (64 - y.toNat) := by
      rw [BitVec.getLsbD_shiftLeft, show 63 - (y.toNat - 1) = 64 - y.toNat by omega]
      simp [show ¬ 63 < y.toNat - 1 by omega]
    rw [out]; simp [shlFlags, h0, h]
  · simp [shlFlags, show y.toNat ≠ 0 by omega, show ¬ y.toNat ≤ 63 by omega]

/-- `SHRL` moves a word down, zeros following, and leaves in C the last bit moved out at the bottom (04 R101). -/
theorem shrlFlags_eq (x y : Word) :
    shrlFlags x y = flaggedOf (Claims.shifted (fun x n => x >>> n) (fun x n => x >>> n) 0 x y) := by
  refine eq_flaggedOf_shifted (fun h0 => ?_) (fun h0 h => ?_) fun h => ?_
  · simp [shrlFlags, h0]
  · simp [shrlFlags, h0, h]
  · simp [shrlFlags, show y.toNat ≠ 0 by omega, show ¬ y.toNat ≤ 63 by omega, BitVec.ushiftRight_eq_zero]

/-- `SHRA` moves a word down, its sign following, and leaves in C the last bit moved out at the bottom (04 R101). -/
theorem shraFlags_eq (x y : Word) :
    shraFlags x y = flaggedOf (Claims.shifted (fun x n => x.sshiftRight n) (fun x n => x.sshiftRight n) 0 x y) := by
  refine eq_flaggedOf_shifted (fun h0 => ?_) (fun h0 h => ?_) fun h => ?_
  · simp [shraFlags, h0]
  · simp [shraFlags, h0, h, BitVec.getLsbD_sshiftRight, -BitVec.getLsbD_eq_getElem, show y.toNat - 1 < 64 by omega]
  · have sign : x.sshiftRight 64 = if x.getLsbD 63 then 0xFFFFFFFFFFFFFFFF else 0 := by
      have top : x.getLsbD 63 = x.msb := (BitVec.msb_eq_getLsbD_last x).symm
      rw [top]
      cases h : x.msb
      · rw [BitVec.sshiftRight_eq_of_msb_false h, BitVec.ushiftRight_eq_zero (le_refl 64)]; rfl
      · rw [BitVec.sshiftRight_eq_of_msb_true h, BitVec.ushiftRight_eq_zero (le_refl 64)]; rfl
    simp [shraFlags, sign, show y.toNat ≠ 0 by omega, show ¬ y.toNat ≤ 63 by omega, BitVec.getElem_sshiftRight]

/-! ## The instructions as their results -/

/-- Every three-operand integer instruction is the shared shape with the result that the statement gives it. -/
theorem exec_threeOperand {e} (he : e ∈ Claims.threeOperand) (c : CoreId) (f : AluForm) (s : State) :
    exec (e.1 c f) s = aluThree e.2.1 e.2.2.1 (fun k x y => flaggedOf (e.2.2.2 k.flagC x y)) c f s := by
  simp only [Claims.threeOperand, List.mem_cons, List.not_mem_nil, or_false] at he
  rcases he with rfl | rfl | rfl | rfl | rfl | rfl | rfl | rfl | rfl | rfl | rfl | rfl | rfl <;>
    simp only [← addFlags_eq, ← subFlags_eq, ← shlFlags_eq, ← shrlFlags_eq, ← shraFlags_eq] <;> rfl

/-- Every two-operand integer instruction is the shared shape with its result, CLZ and POPC in their L64 form only. -/
theorem exec_twoOperand {e} (he : e ∈ Claims.twoOperand) (c : CoreId) (f : AluForm) (s : State)
    (long : e.2.1 = 0x00D ∨ e.2.1 = 0x00E → formLen f = 8) :
    exec (e.1 c f) s = aluTwo e.2.1 e.2.2.1 (fun x => flaggedOf (e.2.2.2 x)) c f s := by
  simp only [Claims.twoOperand, List.mem_cons, List.not_mem_nil, or_false] at he
  rcases he with rfl | rfl | rfl | rfl
  · simp only [← subFlags_eq]; rfl
  · rfl
  · cases f with
    | l64 w => rfl
    | s16 rd rs => simp [formLen] at long
  · cases f with
    | l64 w => rfl
    | s16 rd rs => simp [formLen] at long

/-! ## Completion and INTEGER_OVERFLOW -/

/-- An execution exception of an opcode without sub-cause or address (07 R189). -/
theorem opExc_eq (vec opc : Nat) : opExc vec opc 0 0 = ⟨Fin.ofNat 64 vec, BitVec.ofNat 16 opc, 3, 0⟩ := by
  simp [opExc, plainExc, operandExc]

/-- A three-operand instruction whose result does not trap writes A, FLAGS and the cursors, and is over. -/
theorem aluThree_completes {opc : Nat} {traps : Bool} {g : Core → Word → Word → Flagged} {c : CoreId} {f : AluForm} {s u p : State} :
    let w := formThree f
    let q := g (u.core c) (u.value c (opB u c w) 8).w (u.value c (opC u c w) 8).w
    PassesL s c opc (formLen f) encDVV w (fun s => [(opA s c w).dest, (opB s c w).source, (opC s c w).source]) u →
    (traps && (u.core c).iove && q.v == some true) = false →
    u.putValue c (opA u c w) 8 (binVal q.r) = .ok p →
    aluThree opc traps g c f s = .next (s.finished c (formLen f)
      { s := (p.flagged c q).updateCursors c [opA u c w, opB u c w, opC u c w] }) := by
  intro w q passes quiet put
  refine congrArg Host.Outcome.next (State.issueL_passes passes ?_)
  simp only [w, q] at quiet put
  simp only [quiet, put]
  rfl

/-- A three-operand instruction whose result traps raises INTEGER_OVERFLOW before it writes anything (04 R100). -/
theorem aluThree_overflows {opc : Nat} {g : Core → Word → Word → Flagged} {c : CoreId} {f : AluForm} {s u : State} :
    let w := formThree f
    PassesL s c opc (formLen f) encDVV w (fun s => [(opA s c w).dest, (opB s c w).source, (opC s c w).source]) u →
    (u.core c).iove = true →
    (g (u.core c) (u.value c (opB u c w) 8).w (u.value c (opC u c w) 8).w).v = some true →
    aluThree opc true g c f s = .next (s.faulted c (formLen f) ⟨12, BitVec.ofNat 16 opc, 3, 0⟩ u) := by
  intro w passes enabled overflow
  refine congrArg Host.Outcome.next (State.issueL_raises passes ?_)
  simp only [w] at overflow
  simp only [enabled, overflow, opExc_eq]
  rfl

/-- So does a two-operand instruction. -/
theorem aluTwo_overflows {opc : Nat} {g : Word → Flagged} {c : CoreId} {f : AluForm} {s u : State} :
    let w := formTwo f
    PassesL s c opc (formLen f) encDV w (fun s => [(opA s c w).dest, (opB s c w).source]) u →
    (u.core c).iove = true → (g (u.value c (opB u c w) 8).w).v = some true →
    aluTwo opc true g c f s = .next (s.faulted c (formLen f) ⟨12, BitVec.ofNat 16 opc, 3, 0⟩ u) := by
  intro w passes enabled overflow
  refine congrArg Host.Outcome.next (State.issueL_raises passes ?_)
  simp only [w] at overflow
  simp only [enabled, overflow, opExc_eq]
  rfl

/-- The part of O2 on results and flags. -/
theorem integerThreeOperandResult : Claims.IntegerThreeOperandResult := by
  intro e he c f s u p fl w q passes quiet put flags
  obtain rfl := eq_setFlags_of_flagsAfter flags
  have stays : (e.2.2.1 && (u.core c).iove && (flaggedOf q).v == some true) = false := by
    rw [Bool.eq_false_iff]
    simp only [ne_eq, Bool.and_eq_true, beq_iff_eq]
    exact fun ⟨⟨traps, enabled⟩, overflow⟩ => quiet traps enabled overflow
  rw [exec_threeOperand he]
  exact aluThree_completes (g := fun k x y => flaggedOf (e.2.2.2 k.flagC x y)) passes stays put

/-- The part of O2 on INTEGER_OVERFLOW. -/
theorem integerOverflowTrap : Claims.IntegerOverflowTrap := by
  constructor
  · intro e he c f s u w traps enabled passes overflow
    rw [exec_threeOperand he, traps]
    exact aluThree_overflows passes enabled overflow
  · intro e he c f s u w traps enabled passes overflow
    have neg : ∀ e ∈ Claims.twoOperand, e.2.2.1 = true → ¬ (e.2.1 = 0x00D ∨ e.2.1 = 0x00E) := by
      simp [Claims.twoOperand]
    rw [exec_twoOperand he _ _ _ fun h => absurd h (neg e he traps), traps]
    exact aluTwo_overflows passes enabled overflow

/-- Settles O2, part by part. -/
theorem integerResults : Obligations.IntegerResults := ⟨integerThreeOperandResult, integerOverflowTrap⟩

end Sys2Proof.Machine
end

section
/-! The floating-point compares: finite data as the exact numbers they stand for, and the three instructions (04 R127). -/

namespace Sys2Proof.Machine

open Sys2Proof

/-! ## Comparing data -/

/-- Finite data m1 × r^(q + d1) and m2 × r^(q + d2) compare as m1 × r^d1 and m2 × r^d2: both are brought to the lesser exponent, which
divides both by the same power of the radix. -/
theorem fpCompare_eq (f : Fmt) (n1 n2 : Bool) (m1 m2 d1 d2 : Nat) (q : Int) :
    let x : Int := (if n1 then -1 else 1) * (m1 * f.radix ^ d1 : Nat)
    let y : Int := (if n2 then -1 else 1) * (m2 * f.radix ^ d2 : Nat)
    fpCompare f.radix n1 m1 (q + d1) n2 m2 (q + d2) = (decide (x < y), decide (x = y)) := by
  have pos : (0 : Int) < (f.radix : Int) ^ min d1 d2 := by
    have : 0 < f.radix := by cases f <;> decide
    positivity
  have signed (n : Bool) (m d e : Nat) (h : e ≤ d) :
      (if n then -1 else 1 : Int) * (m * f.radix ^ d : Nat) =
        (if n then -((m : Int) * f.radix ^ (d - e)) else (m : Int) * f.radix ^ (d - e)) * (f.radix : Int) ^ e := by
    rw [← Nat.sub_add_cancel h, pow_add, Nat.add_sub_cancel]
    push_cast
    split <;> ring
  intro x y
  have hx : x = _ * (f.radix : Int) ^ min d1 d2 := signed n1 m1 d1 _ (Nat.min_le_left ..)
  have hy : y = _ * (f.radix : Int) ^ min d1 d2 := signed n2 m2 d2 _ (Nat.min_le_right ..)
  have e1 : (q + d1 - min (q + d1) (q + d2)).toNat = d1 - min d1 d2 := by omega
  have e2 : (q + d2 - min (q + d1) (q + d2)).toNat = d2 - min d1 d2 := by omega
  simp only [fpCompare, e1, e2, hx, hy, mul_lt_mul_iff_left₀ pos, mul_left_inj' pos.ne']

/-- Whether a datum is a signalling NaN. -/
def Fp.signals : Fp → Bool
  | .nan _ sg _ => sg
  | _ => false

/-- A compare with a NaN is unordered, and invalid where one of the two signals. -/
theorem Fmt.compare_nan (f : Fmt) (neg sg : Bool) (p : Nat) (x : Fp) :
    f.compare (.nan neg sg p) x = (false, false, true, { iv := sg || x.signals }) ∧
      f.compare x (.nan neg sg p) = (false, false, true, { iv := sg || x.signals }) := by
  cases x with
  | nan n t q => exact ⟨rfl, by simp [Fmt.compare, Fp.signals, Bool.or_comm]⟩
  | fin n m q => simp [Fmt.compare, Fp.signals]
  | inf n => simp [Fmt.compare, Fp.signals]

/-- A datum signals just where it is a signalling NaN. -/
theorem Fp.signals_iff {x : Fp} : x.signals = true ↔ ∃ n q, x = .nan n true q := by
  cases x <;> simp [Fp.signals]

/-- The only exception of a compare is the invalid operation. -/
theorem Fmt.compare_signals (f : Fmt) (x y : Fp) : ∃ iv, (f.compare x y).2.2.2 = { iv } := by
  unfold Fmt.compare
  split <;> exact ⟨_, rfl⟩

/-- So the exceptions of a compare that are enabled, where there are any, raise FP_INVALID (04 R125). -/
theorem fpVector_compare {f : Fmt} {x y : Fp} {enables : BitVec 5} (h : (f.compare x y).2.2.2.bits &&& enables ≠ 0) :
    fpVector ((f.compare x y).2.2.2.bits &&& enables) = 14 := by
  have invalid : ∀ (iv : Bool) (e : BitVec 5), ({ iv } : FpFlags).bits &&& e ≠ 0 → fpVector (({ iv } : FpFlags).bits &&& e) = 14 := by
    decide
  obtain ⟨iv, only⟩ := f.compare_signals x y
  rw [only] at h ⊢
  exact invalid iv enables h

/-! ## The instructions -/

/-- What a compare leaves in FLAGS and FPCTL of its core (04 R127). -/
def State.compared (s : State) (c : CoreId) (q : Bool × Bool × Bool × FpFlags) : State :=
  (s.sticky c q.2.2.2.bits).modCore c fun k =>
    { k with flags := setBit (setBit (setBit (setBit k.flags 0 q.1) 1 q.2.1) 2 q.2.2.1) 3 false }

/-- It leaves memory and the registers of the core. -/
theorem State.compared_keeps (s : State) (c : CoreId) (q : Bool × Bool × Bool × FpFlags) :
    (s.compared c q).mem = s.mem ∧ ((s.compared c q).core c).banks = (s.core c).banks := by
  simp [State.compared, State.sticky]

/-- A sticky flag for each exception, and FLAGS bit by bit. -/
theorem State.compared_flags (s : State) (c : CoreId) (q : Bool × Bool × Bool × FpFlags) :
    let k := (s.compared c q).core c
    k.fpctl = (s.core c).fpctl ||| (q.2.2.2.bits.setWidth 64 <<< 8) ∧
      k.flags.getLsbD 0 = q.1 ∧ k.flags.getLsbD 1 = q.2.1 ∧ k.flags.getLsbD 2 = q.2.2.1 ∧ k.flags.getLsbD 3 = false ∧
      ∀ i, 4 ≤ i → k.flags.getLsbD i = (s.core c).flags.getLsbD i := by
  have above (i : Nat) (hi : 4 ≤ i) : i ≠ 0 ∧ i ≠ 1 ∧ i ≠ 2 ∧ i ≠ 3 := by omega
  simp +contextual [State.compared, State.sticky, above, -BitVec.getLsbD_eq_getElem]

/-- The cursor that an operand updates depends on the C registers alone. -/
theorem State.resolve_upd {s t : State} {c : CoreId} (same : ∀ r, (t.core c).getC r = (s.core c).getC r) (n : Nat) (sp : BitVec 16)
    (elem : Nat) : (t.resolve c n sp elem).upd = (s.resolve c n sp elem).upd := by
  unfold State.resolve
  simp only [same]
  split <;> rfl

/-- Operands with the same updates leave the same cursors. -/
theorem State.updateCursors_congr (s : State) (c : CoreId) {o1 o2 p1 p2 : Opd} (h1 : o1.upd = p1.upd) (h2 : o2.upd = p2.upd) :
    s.updateCursors c [o1, o2] = s.updateCursors c [p1, p2] := by
  simp only [State.updateCursors, List.foldl, h1, h2]

/-- A compare of an instruction that passes its checks: FP_INVALID where it is enabled and signalled, else FLAGS and FPCTL. -/
theorem fpCmp_passes {f : Fmt} {opc : Nat} {c : CoreId} {w : L64} {s u : State} :
    let n := f.bytes
    let q := f.compare (u.fpValue c f (fpA c w n u)) (u.fpValue c f (fpB c w n u))
    PassesL s c opc 8 { a := .v, b := .v, c := .unused, wideA := f.wide, wideB := f.wide } w
      (fun s => [fpSource f (fpA c w n s), fpSource f (fpB c w n s)]) u →
    (q.2.2.2.bits &&& (u.core c).fpEnables ≠ 0 →
      fpCmp f opc c w s = .next (s.faulted c 8 ⟨14, BitVec.ofNat 16 opc, 3, 0⟩ u)) ∧
    (q.2.2.2.bits &&& (u.core c).fpEnables = 0 →
      fpCmp f opc c w s = .next (s.finished c 8 { s := (u.compared c q).updateCursors c [fpA c w n u, fpB c w n u] })) := by
  intro n q passes
  constructor
  · intro raised
    refine congrArg Host.Outcome.next (State.issueL_raises passes ?_)
    rw [← show opExc 14 opc 0 0 = ⟨14, BitVec.ofNat 16 opc, 3, 0⟩ from opExc_eq 14 opc, ← fpVector_compare raised]
    exact if_pos raised
  · intro quiet
    have cursors (r : BitVec 4) : ((u.compared c q).core c).getC r = (u.core c).getC r := by
      simp only [State.compared, State.sticky, State.core_modCore]
      rfl
    have same : (u.compared c q).updateCursors c [fpA c w n (u.compared c q), fpB c w n (u.compared c q)] =
        (u.compared c q).updateCursors c [fpA c w n u, fpB c w n u] :=
      State.updateCursors_congr _ _ (State.resolve_upd cursors ..) (State.resolve_upd cursors ..)
    refine congrArg Host.Outcome.next (State.issueL_passes passes ?_)
    rw [← same]
    exact if_neg (not_not.2 quiet)

/-- The compare of each format is the shared shape. -/
theorem exec_compare {e} (he : e ∈ ([(.fcmp, .b64, 0x206), (.dfcmp, .d64, 0x216), (.dqcmp, .d128, 0x226)] :
    List ((CoreId → L64 → Instr) × Fmt × Nat))) (c : CoreId) (w : L64) (s : State) :
    exec (e.1 c w) s = fpCmp e.2.1 e.2.2 c w s := by
  simp only [List.mem_cons, List.not_mem_nil, or_false] at he
  rcases he with rfl | rfl | rfl <;> rfl

/-- Settles O32: the instructions, then finite data, infinities and NaNs. -/
theorem floatCompare : Obligations.FloatCompare := by
  refine ⟨?instructions, ?finite, ?infinite, ?nan⟩
  case instructions =>
    intro e he c w s u f n q passes
    rw [exec_compare he]
    obtain ⟨raises, completes⟩ := fpCmp_passes passes
    refine ⟨raises, fun quiet => ⟨u.compared c q, completes quiet, ?_⟩⟩
    obtain ⟨mem, banks⟩ := u.compared_keeps c q
    obtain ⟨fpctl, z, l, v, carry, above⟩ := u.compared_flags c q
    exact ⟨z, l, v, carry, above, fpctl, mem, banks⟩
  case finite =>
    intro f n1 n2 m1 m2 d1 d2 q x y
    rw [Fmt.compare, fpCompare_eq]
  case infinite => exact fun f n1 n2 m q => ⟨rfl, rfl, rfl⟩
  case nan =>
    intro f neg sg p x r l
    obtain ⟨hr, hl⟩ := f.compare_nan neg sg p x
    simp only [r, l, hr, hl, true_and]
    constructor
    · intro silent
      have : x.signals = false := by
        rw [Bool.eq_false_iff, ne_eq, Fp.signals_iff]
        exact fun ⟨n, q, hx⟩ => silent n q hx
      simp [this]
    · intro n q hx
      simp [Fp.signals_iff.2 ⟨n, q, hx⟩]

end Sys2Proof.Machine
end

section
/-! Little-endian fields read back from byte strings, and bit maps from their bits (14 Tables 14.7 and 14.8). -/

namespace Sys2Proof.Machine

open Sys2Proof

/-! ## Fields of byte strings -/

@[simp] theorem length_toLe (n v : Nat) : (toLe n v).length = n := by
  induction n generalizing v with
  | zero => rfl
  | succ n ih => rw [toLe, List.length_cons, ih]

/-- The bytes of a number give it back, as far as they reach. -/
theorem leNat_toLe (n v : Nat) : leNat (toLe n v) = v % 256 ^ n := by
  induction n generalizing v with
  | zero => rw [pow_zero, Nat.mod_one]; rfl
  | succ n ih =>
    rw [toLe, leNat, ih, BitVec.toNat_ofNat, Nat.mod_mod, Nat.pow_succ', Nat.mod_mul]

/-- A field past the first part of a string is a field of the rest. -/
theorem fieldLe_append_right {a b : List Byte} {off : Nat} (n : Nat) (h : a.length ≤ off) :
    fieldLe (a ++ b) off n = fieldLe b (off - a.length) n := by
  refine congrArg leNat (List.map_congr_left fun i _ => ?_)
  rw [List.getD_append_right _ _ _ _ (Nat.le_add_right_of_le h), Nat.sub_add_comm h]

/-- The field that a string begins with. -/
theorem fieldLe_append_left (a b : List Byte) : fieldLe (a ++ b) 0 a.length = leNat a := by
  refine congrArg leNat (List.ext_getElem (by simp [slice]) fun i _ h => ?_)
  simp [slice, List.getElem?_append_left h, List.getElem?_eq_getElem h]

/-- A field behind a number. -/
theorem fieldLe_toLe_skip {k off : Nat} (v n : Nat) (b : List Byte) (h : k ≤ off) :
    fieldLe (toLe k v ++ b) off n = fieldLe b (off - k) n := by
  rw [fieldLe_append_right n (by rwa [length_toLe]), length_toLe]

/-- A number that a string begins with. -/
theorem fieldLe_toLe_head (n v : Nat) (b : List Byte) : fieldLe (toLe n v ++ b) 0 n = v % 256 ^ n := by
  rw [← leNat_toLe, ← fieldLe_append_left, length_toLe]

/-- A string that is one number. -/
theorem fieldLe_toLe (n v : Nat) : fieldLe (toLe n v) 0 n = v % 256 ^ n := by
  rw [← fieldLe_toLe_head n v [], List.append_nil]

/-! ## Bit maps -/

/-- The number whose bit i says whether a predicate holds at i. -/
def bitMap (n : Nat) (f : Fin n → Bool) : Nat := (List.finRange n).foldl (fun t i => t + if f i then 2 ^ i.val else 0) 0

theorem bitMap_succ (n : Nat) (f : Fin (n + 1) → Bool) :
    bitMap (n + 1) f = bitMap n (fun i => f i.castSucc) + if f (Fin.last n) then 2 ^ n else 0 := by
  simp [bitMap, List.finRange_succ_last, List.foldl_map]

theorem bitMap_lt (n : Nat) (f : Fin n → Bool) : bitMap n f < 2 ^ n := by
  induction n with
  | zero => exact Nat.one_pos
  | succ n ih =>
    have := ih fun i => f i.castSucc
    rw [bitMap_succ, Nat.pow_succ]
    split <;> omega

/-- Each bit of a bit map is its predicate. -/
theorem testBit_bitMap (n : Nat) (f : Fin n → Bool) (i : Fin n) : (bitMap n f).testBit i.val = f i := by
  induction n with
  | zero => exact i.elim0
  | succ n ih =>
    have low := bitMap_lt n fun i => f i.castSucc
    rw [bitMap_succ]
    cases i using Fin.lastCases with
    | last =>
      split
      next h => rw [Fin.val_last, Nat.add_comm, Nat.testBit_two_pow_add_eq, Nat.testBit_lt_two_pow low, h]; rfl
      next h => rw [Fin.val_last, Nat.add_zero, Nat.testBit_lt_two_pow low, Bool.eq_false_iff.2 h]
    | cast j =>
      split
      next => rw [Fin.val_castSucc, Nat.add_comm, Nat.testBit_two_pow_add_gt j.isLt, ih]
      next => rw [Fin.val_castSucc, Nat.add_zero, ih]

end Sys2Proof.Machine
end

section
/-! The mailboxes: semaphores, rings, repeated tags and responses (13 R360, R361, Table 13.13; 14 R363 to R366). -/

namespace Sys2Proof.Machine

open Sys2Proof

/-! ## Responses -/

/-- The module with its MSI-X table, what it puts out and its SMBus alert changed: all that tells an agent of a response. -/
def State.notified (s : State) (ms : Vector Msix 64) (os : List Output) (al : Bool) : State :=
  { s with msix := ms, out := os, steward := { s.steward with smbAlert := al } }

/-- An MSI-X message goes out or stays pending, and nothing else changes. -/
theorem State.sendMsix_eq (s : State) (v : Fin 64) : ∃ ms os, s.sendMsix v = s.notified ms os s.steward.smbAlert := by
  unfold State.sendMsix
  split <;> exact ⟨_, _, rfl⟩

/-- A mailbox that holds its response. -/
def Mailbox.answered (b : Mailbox) (rsp : List Byte) : Mailbox :=
  { b with rsp := rsp, busy := false, done := true, stored := some (b.tag, rsp), started := false, progress := 0 }

/-- A response changes its mailbox and tells the agent of it, and nothing else. -/
theorem State.deliver_eq (s : State) (m : MboxId) (rsp : List Byte) :
    ∃ ms os al, s.deliver m rsp = (s.modMb m (·.answered rsp)).notified ms os al := by
  obtain ⟨ms, os, sent⟩ := (s.modMb m (·.answered rsp)).sendMsix_eq (Fin.ofNat 64 s.mbvec.toNat)
  change ∃ ms os al, (let u := s.modMb m (·.answered rsp)
    let u := if (u.mb m).ien && u.pcieUp then u.sendMsix (Fin.ofNat 64 u.mbvec.toNat) else u
    if (u.mb m).owner = 2 then { u with steward := { u.steward with smbAlert := true } } else u) = _
  dsimp only
  rw [State.modMb_mbvec, sent]
  split <;> split <;> exact ⟨_, _, _, rfl⟩

@[simp] theorem State.deliver_mb (s : State) (m : MboxId) (rsp : List Byte) : (s.deliver m rsp).mb m = (s.mb m).answered rsp := by
  obtain ⟨ms, os, al, e⟩ := s.deliver_eq m rsp
  rw [e]
  exact s.mb_modMb m (·.answered rsp)

theorem State.deliver_mb_ne (s : State) {m n : MboxId} (rsp : List Byte) (h : n ≠ m) : (s.deliver m rsp).mb n = s.mb n := by
  obtain ⟨ms, os, al, e⟩ := s.deliver_eq m rsp
  rw [e]
  exact s.mb_modMb_ne m n (·.answered rsp) h

/-- A response stands in its mailbox as 14 Table 14.2 lays it out, whatever else the command has changed. -/
theorem State.respond_answered {s u : State} {m : MboxId} {st detail : Nat} {data : List Byte} (req : (u.mb m).req = (s.mb m).req)
    (tag : (u.mb m).tag = (s.mb m).tag) (ok : st = 0 ∨ data = []) :
    Claims.Answered s (u.respond m st detail data) m st detail data := by
  have sent : (if st = 0 then data else []) = data := by
    rcases ok with h | rfl
    · exact if_pos h
    · exact ite_self _
  simp only [State.respond, sent, Claims.Answered, State.deliver_mb, Mailbox.answered, Mailbox.cmd, response, req, tag, and_self]

/-- A response leaves all but the mailboxes, the MSI-X table, what the module puts out and the alert. -/
theorem State.respond_eq (s : State) (m : MboxId) (st detail : Nat) (data : List Byte) :
    ∃ bs ms os al, s.respond m st detail data = { s with mailboxes := bs }.notified ms os al := by
  obtain ⟨ms, os, al, e⟩ := s.deliver_eq m (response st (s.mb m).cmd detail (s.mb m).tag (if st = 0 then data else []))
  exact ⟨_, ms, os, al, e⟩

/-! ## Semaphores and rings -/

/-- A ring over PCIe, and one over SMBus with a good check byte, is the ring of its mailbox by its agent (13 Table 13.13). -/
theorem exec_ring {m : MboxId} {ag : Agent} {ring : Instr} {s : State} (reach : s.reaches m ag = true)
    (rings : ring = .mbdbRing m ag ∨ (m = 0 ∧ ag = .smbus ∧ ∃ pec, pec ≠ .bad ∧ ring = .smbRing 1 pec)) :
    exec ring s = .next (s.ring m ag) := by
  rcases rings with rfl | ⟨rfl, rfl, pec, good, rfl⟩
  · rfl
  · have up : s.smbusUp = true := (Bool.and_eq_true_iff.1 reach).1
    have accepted : (s.smbAccepts pec && (1 : Byte) == 1) = true := by simp [State.smbAccepts, up, good]
    exact congrArg Host.Outcome.next (if_pos accepted)

/-- A ring by another agent than the owner, or of a busy mailbox, is logged (13 R360). -/
theorem State.ring_refused {s : State} {m : MboxId} {ag : Agent} (reach : s.reaches m ag = true)
    (h : (s.mb m).owner ≠ agentNum ag ∨ (s.mb m).busy = true) : s.ring m ag = s.logHost m.val 3 1 := by
  simp only [State.ring, reach, Bool.not_true, Bool.false_eq_true, if_false, h, if_true]

/-- A mailbox that has been rung, with its place in ring order. -/
def Mailbox.rung (b : Mailbox) (ring : Nat) : Mailbox := { b with busy := true, started := false, progress := 0, ring := ring }

/-- The module once it has taken a ring. -/
def State.rung (s : State) (m : MboxId) : State := { s.modMb m (·.rung s.nextRing) with nextRing := s.nextRing + 1 }

@[simp] theorem State.rung_mb (s : State) (m : MboxId) : (s.rung m).mb m = (s.mb m).rung s.nextRing :=
  s.mb_modMb m (·.rung s.nextRing)

theorem State.rung_mb_ne (s : State) {m n : MboxId} (h : n ≠ m) : (s.rung m).mb n = s.mb n :=
  s.mb_modMb_ne m n (·.rung s.nextRing) h

/-- The checks of a request do not look at the mailboxes. -/
theorem State.rung_checkRequest (s : State) (m : MboxId) (req : List Byte) : (s.rung m).checkRequest req = s.checkRequest req := rfl

/-- What becomes of a ring with a new tag in a mailbox that stood as `b`: the status of the check that fails, or nothing yet. -/
def State.checkRing (s : State) (m : MboxId) (b : Mailbox) : State :=
  match s.checkRequest b.req with
  | some (st, detail) => s.respond m st detail []
  | none => s

theorem State.checkRing_nextRing (s : State) (m : MboxId) (b : Mailbox) : (s.checkRing m b).nextRing = s.nextRing := by
  unfold State.checkRing
  split
  next st detail _ => obtain ⟨bs, ms, os, al, e⟩ := s.respond_eq m st detail []; rw [e]; rfl
  next => rfl

/-- What becomes of a ring taken in a mailbox that stood as `b`: its stored response, the check that fails, or nothing yet. -/
def State.answerRing (s : State) (m : MboxId) (b : Mailbox) : State :=
  match b.stored with
  | some (tag, rsp) => if tag = b.tag then s.deliver m rsp else s.checkRing m b
  | none => s.checkRing m b

section Taken

variable {s : State} {m : MboxId} {ag : Agent} (reach : s.reaches m ag = true) (alive : s.steward.fatal = false)
  (owner : (s.mb m).owner = agentNum ag) (idle : (s.mb m).busy = false)

include reach alive owner idle

/-- A ring by the owner of an idle mailbox is taken, and answered where it can be at once. -/
theorem State.ring_taken : s.ring m ag = (s.rung m).answerRing m (s.mb m) := by
  have all : s.ring m ag = if !s.reaches m ag then s else if (s.mb m).owner ≠ agentNum ag ∨ (s.mb m).busy then s.logHost m.val 3 1
      else if s.steward.fatal then s.rung m else (s.rung m).answerRing m (s.mb m) := rfl
  simp [all, reach, owner, idle, alive]

/-- A repeated tag is answered with its stored response (14 R366). -/
theorem State.ring_repeated {rsp : List Byte} (stored : (s.mb m).stored = some ((s.mb m).tag, rsp)) :
    s.ring m ag = (s.rung m).deliver m rsp := by
  rw [State.ring_taken reach alive owner idle, State.answerRing, stored]
  exact if_pos rfl

/-- A new tag has its request checked (14 R364). -/
theorem State.ring_new (new : ∀ rsp, (s.mb m).stored ≠ some ((s.mb m).tag, rsp)) :
    s.ring m ag = (s.rung m).checkRing m (s.mb m) := by
  rw [State.ring_taken reach alive owner idle, State.answerRing]
  split
  next tag rsp stored => exact if_neg fun (same : tag = (s.mb m).tag) => new rsp (same ▸ stored)
  next => rfl

end Taken

/-- The part of O41 on the mailboxes. -/
theorem mailboxProtocol : Claims.MailboxProtocol := by
  refine ⟨?semaphores, ?rings, ?responses⟩
  case semaphores =>
    intro m ag s reach
    have acq : exec (.mbsemAcq m ag) s = .next (s.acquire m ag) := rfl
    have rel : exec (.mbsemRel m ag) s = .next (s.release m ag) := rfl
    simp only [acq, rel, State.acquire, State.release, reach, Bool.true_and, beq_iff_eq]
    exact ⟨fun h => by rw [if_pos h], fun h => by rw [if_neg h], fun h => by rw [if_pos h], fun h => by rw [if_neg h]⟩
  case rings =>
    intro m ag ring s reach alive rings b
    rw [exec_ring reach rings]
    refine ⟨fun refused => ⟨_, rfl, ?_⟩, fun owner idle => ⟨fun r stored => ⟨_, rfl, ?_⟩, fun new => ⟨_, rfl, ?_⟩⟩⟩
    · rw [State.ring_refused reach refused]
      exact ⟨rfl, rfl⟩
    · rw [State.ring_repeated reach alive owner idle stored, State.deliver_mb, State.rung_mb]
      refine ⟨rfl, rfl, rfl, stored.symm, fun n h => ?_, ?_⟩
      · rw [State.deliver_mb_ne _ _ h, State.rung_mb_ne _ h]
      · obtain ⟨ms, os, al, e⟩ := (s.rung m).deliver_eq m r
        rw [e]
        rfl
    · rw [State.ring_new reach alive owner idle new]
      refine ⟨State.checkRing_nextRing .., fun st detail fails _ => ?_, fun passes => ?_⟩
      · rw [State.checkRing, State.rung_checkRequest, fails]
        exact State.respond_answered (by rw [State.rung_mb]; rfl) (by rw [State.rung_mb]; rfl) (.inr rfl)
      · rw [State.checkRing, State.rung_checkRequest, passes, State.rung_mb]
        exact ⟨rfl, rfl, rfl⟩
  case responses =>
    intro s m st detail data ok t
    refine ⟨State.respond_answered rfl rfl ok, fun n h => State.deliver_mb_ne _ _ h, ?_⟩
    obtain ⟨bs, ms, os, al, e⟩ := s.respond_eq m st detail data
    simp only [t, e]
    exact ⟨rfl, rfl, rfl, rfl, rfl⟩

end Sys2Proof.Machine
end

section
/-! What IDENTIFY and STATUS answer, field by field (14 Tables 14.7, 14.8; 11 Table 11.5). -/

namespace Sys2Proof.Machine

open Sys2Proof

/-! ## Identity -/

theorem State.coreMap_eq (s : State) (f : Core → Bool) : s.coreMap f = bitMap 96 fun c => f (s.core c) := rfl

/-- A microcode version as `IDENTIFY` answers it: zero before ST4 has verified the control stores. -/
def State.verifiedVersion (s : State) (v : BitVec 32) : Nat := if 4 ≤ s.steward.stage then v.toNat else 0

theorem State.verifiedVersion_lt (s : State) (v : BitVec 32) : s.verifiedVersion v < 256 ^ 4 := by
  unfold State.verifiedVersion
  split
  · exact v.isLt
  · decide

/-- The data as a sequence of numbers (14 Table 14.7). -/
theorem State.identity_eq (s : State) :
    s.identity = toLe 4 Config.partCode.toNat ++ (toLe 2 Config.revision.toNat ++ (toLe 2 0x0100 ++ (toLe 8 Config.serial.toNat ++
      (toLe 4 Config.fwVersion.toNat ++ (toLe 4 (s.verifiedVersion Config.ucVersion) ++
      (toLe 4 (s.verifiedVersion (s.steward.patches.getD 0 0)) ++ (toLe 4 (s.verifiedVersion (s.steward.patches.getD 1 0)) ++
      (toLe 4 (s.verifiedVersion (s.steward.patches.getD 2 0)) ++ (toLe 4 (s.verifiedVersion (s.steward.patches.getD 3 0)) ++
      (toLe 1 s.steward.fuseLevel ++ (toLe 1 s.pins.bootSel.toNat ++ (toLe 2 Config.sclkLimit ++
      toLe 12 (bitMap 96 fun c => (s.core c).run == .paddock))))))))))))) := by
  have range : List.range 4 = [0, 1, 2, 3] := rfl
  simp only [State.identity, State.coreMap_eq, State.verifiedVersion, range, List.flatMap_cons, List.flatMap_nil, List.append_nil,
    List.append_assoc, decide_eq_true_eq]

/-! ## State -/

theorem State.statusBits_spec (s : State) :
    s.statusBits < 32 ∧ s.statusBits.testBit 0 = s.pins.ready ∧ s.statusBits.testBit 1 = s.pins.safe ∧
      s.statusBits.testBit 2 = s.faultN ∧ s.statusBits.testBit 3 = s.pins.thermTrip ∧ s.statusBits.testBit 4 = s.steward.pairB := by
  have bits : ∀ a b c d e : Bool, let n := (if a then 1 else 0) + (if b then 2 else 0) + (if c then 4 else 0) + (if d then 8 else 0)
      + (if e then 16 else 0)
      n < 32 ∧ n.testBit 0 = a ∧ n.testBit 1 = b ∧ n.testBit 2 = c ∧ n.testBit 3 = d ∧ n.testBit 4 = e := by decide
  exact bits ..

/-- The two bytes that every stage answers. -/
theorem State.statusData_head (s : State) :
    let g (off n : Nat) : Nat := fieldLe s.statusData (off - 0x10) n
    s.statusData.length = 52 ∧ g 0x10 1 = s.steward.stage % 256 ∧ g 0x11 1 = s.statusBits := by
  have small : s.statusBits % 256 = s.statusBits := Nat.mod_eq_of_lt (by have := s.statusBits_spec.1; omega)
  unfold State.statusData
  dsimp only
  split <;>
    simp (disch := decide) only [List.append_assoc, fieldLe_toLe_skip, fieldLe_toLe_head, List.length_append, length_toLe,
      List.length_replicate, Nat.reduceSub, Nat.reduceAdd, Nat.reducePow, small, and_self]

/-- Below stage 2 the rest is zero (14 R370). -/
theorem State.statusData_early {s : State} (early : s.steward.stage < 2) {i : Nat} (hi : 2 ≤ i) : s.statusData.getD i 0 = 0 := by
  unfold State.statusData
  rw [if_pos early, List.getD_append_right _ _ _ _ (by simpa using hi)]
  simp only [List.getD_eq_getElem?_getD, List.getElem?_replicate]
  split <;> rfl

/-- The word that `STATUS` answers for a yard: zero below stage 4 (14 R370). -/
def State.statusWord (s : State) (y : Yard) : Nat := if 4 ≤ s.steward.stage then (s.yard y).word.toNat else 0

/-- The fields of a yard's status word (11 Table 11.5). -/
theorem YardState.word_fields {k : YardState} (h : k.pcount < 2 ^ 24) :
    let x := k.word.toNat
    x % 4 = k.mode.toNat ∧ x / 2 ^ 2 % 16 = k.spare.toNat ∧ x / 2 ^ 6 % 16 = k.failed.toNat ∧ x.testBit 10 = k.rate ∧
      x.testBit 11 = k.lostUp ∧ x / 2 ^ 12 % 2 ^ 28 = k.rptr % 2 ^ 28 ∧ x / 2 ^ 40 = k.pcount := by
  have mode := k.mode.isLt
  have spare := k.spare.isLt
  have failed := k.failed.isLt
  simp only [YardState.word, BitVec.toNat_ofNat, Nat.testBit_eq_decide_div_mod_eq]
  cases k.rate <;> cases k.lostUp <;>
    simp only [Bool.false_eq_true, if_false, if_true, decide_eq_true_eq, decide_eq_false_iff_not] <;> omega

/-- The cores in service, counted in their order. -/
theorem State.length_filter_cores (s : State) (f : Core → Bool) :
    (s.cores.toList.filter f).length = ((List.finRange 96).filter fun c => f (s.core c)).length := by
  have cores : s.cores.toList = (List.finRange 96).map s.core := by
    refine List.ext_getElem (by simp) fun i _ _ => ?_
    simp [State.core]
  rw [cores, List.filter_map, List.length_map]
  rfl

theorem State.throttled_iff (s : State) (h : ShedId) :
    s.throttled h = decide (s.sheds[h].retained = false ∧ s.sheds[h].mhz < s.shedFmax h) := by
  simp [State.throttled, Bool.decide_and]

/-- The data of a stage that answers them all. -/
theorem State.statusData_late {s : State} (late : 2 ≤ s.steward.stage) :
    s.statusData = toLe 1 s.steward.stage ++ (toLe 1 s.statusBits ++ (toLe 2 s.steward.power ++
      (toLe 1 (s.steward.hottest % 256).toNat ++ (toLe 1 ((List.finRange 96).filter fun c => (s.core c).run != .paddock).length ++
      (toLe 2 (bitMap 12 s.throttled) ++ (toLe 8 (s.statusWord .a) ++ (toLe 8 (s.statusWord .b) ++ (toLe 8 (s.ringFree .a) ++
      (toLe 8 (s.ringFree .b) ++ (toLe 2 ((s.port 0).code + 4 * (s.port 1).code) ++
      (toLe 2 ((if s.streamA.fenced then 1 else 0) + (if s.streamB.fenced then 2 else 0)) ++
      (toLe 4 (s.sessions.filter fun e => e.2.state == 1).length ++ toLe 4 (s.steward.nextSeq - 1))))))))))))) := by
  unfold State.statusData
  dsimp only
  rw [if_neg (Nat.not_lt.2 late), State.length_filter_cores]
  simp only [List.append_assoc]
  rfl

theorem Port.code_lt (k : Port) : k.code < 4 := by
  unfold Port.code
  split_ifs <;> decide

theorem Port.code_eq (k : Port) :
    k.code = if k.linkUp = false then 0 else if k.notReady = true then 1 else if k.paired = true then 3 else 2 := by
  simp only [Port.code, Bool.not_eq_true']

/-- The fields past the first two bytes, from stage 2 on (14 Table 14.8). -/
theorem State.statusData_fields {s : State} (late : 2 ≤ s.steward.stage) :
    let g (off n : Nat) : Nat := fieldLe s.statusData (off - 0x10) n
    let w := s.steward
    g 0x12 2 = w.power % 65536 ∧ (g 0x14 1 : Int) = w.hottest % 256 ∧
      g 0x15 1 = ((List.finRange 96).filter fun c => (s.core c).run != .paddock).length ∧
      g 0x16 2 = bitMap 12 s.throttled ∧ (∀ y, g (0x18 + 8 * yardNum y) 8 = s.statusWord y) ∧
      (∀ y, g (0x28 + 8 * yardNum y) 8 = s.ringFree y % 2 ^ 64) ∧ (∀ p : PortId, g 0x38 2 / 4 ^ p.val % 4 = (s.port p).code) ∧
      (∀ y, (g 0x3A 2).testBit (yardNum y) = (s.stream y).fenced) ∧
      g 0x3C 4 = (s.sessions.filter fun e => e.2.state == 1).length % 2 ^ 32 ∧ g 0x40 4 = (w.nextSeq - 1) % 2 ^ 32 := by
  intro g w
  have word (y : Yard) : s.statusWord y < 256 ^ 8 := by
    unfold State.statusWord
    split
    · exact (s.yard y).word.isLt
    · decide
  have serving : ((List.finRange 96).filter fun c => (s.core c).run != .paddock).length ≤ 96 :=
    (List.length_filter_le _ _).trans (List.length_finRange).le
  have sheds : bitMap 12 s.throttled < 256 ^ 2 := (bitMap_lt 12 _).trans (by decide)
  simp (disch := decide) only [g, w, State.statusData_late late, fieldLe_toLe_skip, fieldLe_toLe_head, fieldLe_toLe, Nat.reduceSub]
  refine ⟨rfl, by omega, Nat.mod_eq_of_lt (by omega), Nat.mod_eq_of_lt sheds, fun y => ?words, fun y => ?rings, fun p => ?ports,
    fun y => ?streams, rfl, rfl⟩
  case words =>
    cases y <;> simp (disch := decide) only [yardNum, fieldLe_toLe_skip, fieldLe_toLe_head, Nat.reduceSub, Nat.reduceAdd, Nat.reduceMul]
    all_goals exact Nat.mod_eq_of_lt (word _)
  case rings =>
    cases y <;> simp (disch := decide) only [yardNum, fieldLe_toLe_skip, fieldLe_toLe_head, Nat.reduceSub, Nat.reduceAdd, Nat.reduceMul]
    all_goals rfl
  case ports =>
    have pair {a b : Nat} (ha : a < 4) (hb : b < 4) :
        (a + 4 * b) % 256 ^ 2 / 4 ^ 0 % 4 = a ∧ (a + 4 * b) % 256 ^ 2 / 4 ^ 1 % 4 = b := by omega
    have both := pair (s.port 0).code_lt (s.port 1).code_lt
    match p with
    | 0 => exact both.1
    | 1 => exact both.2
  case streams =>
    have bits : ∀ a b : Bool, let n := ((if a then 1 else 0) + (if b then 2 else 0)) % 256 ^ 2
        n.testBit 0 = a ∧ n.testBit 1 = b := by decide
    cases y with
    | a => exact (bits ..).1
    | b => exact (bits ..).2

/-- The part of O41 on the data of `IDENTIFY` and `STATUS`. -/
theorem reportedData (s : State) : Claims.ReportedData s s.identity s.statusData := by
  obtain ⟨bits, ready, safe, fault, trip, pair⟩ := s.statusBits_spec
  obtain ⟨length, stage, head⟩ := s.statusData_head
  refine ⟨?identity, length, stage, ?_⟩
  case identity =>
    have fits (v : BitVec 32) : s.verifiedVersion v % 256 ^ 4 = s.verifiedVersion v := Nat.mod_eq_of_lt (s.verifiedVersion_lt v)
    have cores : bitMap 96 (fun c => (s.core c).run == .paddock) < 256 ^ 12 := bitMap_lt 96 _
    simp (disch := decide) only [State.identity_eq, fieldLe_toLe_skip, fieldLe_toLe_head, fieldLe_toLe, List.length_append, length_toLe,
      Nat.reduceSub, Nat.reduceAdd, fits, true_and]
    refine ⟨Nat.mod_eq_of_lt (BitVec.isLt _), Nat.mod_eq_of_lt (BitVec.isLt _), rfl, Nat.mod_eq_of_lt (BitVec.isLt _),
      Nat.mod_eq_of_lt (BitVec.isLt _), rfl, fun i hi => ?_, rfl, Nat.mod_eq_of_lt (by omega), rfl, fun c => ?_⟩
    · interval_cases i <;>
        simp (disch := decide) only [fieldLe_toLe_skip, fieldLe_toLe_head, Nat.reduceSub, Nat.reduceAdd, Nat.reduceMul, fits]
      all_goals rfl
    · rw [Nat.mod_eq_of_lt cores, testBit_bitMap]
      rfl
  rw [head]
  refine ⟨ready, safe, fault, trip, pair, bits, fun early i hi => State.statusData_early early hi, fun late => ?_⟩
  obtain ⟨power, hottest, serving, sheds, words, rings, ports, streams, sessions, seq⟩ := State.statusData_fields late
  refine ⟨power, hottest, serving, fun h => ?_, fun y => ?_, rings, fun p => ?_, streams, sessions, seq⟩
  · rw [sheds, testBit_bitMap, State.throttled_iff]
  · rw [words, State.statusWord]
    exact ⟨fun h => if_neg (Nat.not_le.2 h), fun h bound => by rw [if_pos h]; exact YardState.word_fields bound⟩
  · exact (ports p).trans (Port.code_eq _)

end Sys2Proof.Machine
end

section
/-! The steward's commands that report and set (14 R372, Tables 14.5 to 14.8; 02 R26; 17 R425). -/

namespace Sys2Proof.Machine

open Sys2Proof

/-- A command that is ready runs its body on its request, once it has begun (14 R367). -/
theorem State.command_ready {s : State} {m : MboxId} {cmd : Nat} {kind : List Byte → Bool} {body : Bool → List Byte → State → State}
    (ready : Claims.Ready s m cmd) (kinds : kind (s.mb m).req = true) :
    s.command m cmd kind body = body (!(s.mb m).started) (s.mb m).req (Claims.begun s m) := by
  obtain ⟨busy, code, alive, up, wait, free⟩ := ready
  have reads : (!s.steward.warmWait || readsOnly cmd) = true := by
    simpa only [readsOnly, Bool.or_eq_true, Bool.not_eq_true', List.contains_iff_mem] using wait
  have same : ((s.mb m).cmd == cmd) = true := beq_iff_eq.2 code
  unfold State.command
  simp only [busy, same, kinds, alive, up, reads, free, Bool.not_false, Bool.and_self, if_true]
  rfl

/-- A command that has begun has the request and the tag that were rung, whatever else it changes outside the mailboxes. -/
theorem State.begun_answered {s u : State} {m : MboxId} {st detail : Nat} {data : List Byte}
    (kept : u.mailboxes = (Claims.begun s m).mailboxes) (ok : st = 0 ∨ data = []) :
    Claims.Answered s (u.respond m st detail data) m st detail data := by
  have mb : u.mb m = { s.mb m with started := true } :=
    (congrArg (·[m]) kept).trans (s.mb_modMb m fun b => { b with started := true })
  exact State.respond_answered (by rw [mb]) (by rw [mb]) ok

/-! ## What a response leaves -/

section Leaves

variable (s : State) (m : MboxId) (st detail : Nat) (data : List Byte)

@[simp] theorem State.respond_policy : (s.respond m st detail data).steward.policy = s.steward.policy := by
  obtain ⟨bs, ms, os, al, e⟩ := s.respond_eq m st detail data; rw [e]; rfl

@[simp] theorem State.respond_policyBlock : (s.respond m st detail data).steward.policyBlock = s.steward.policyBlock := by
  obtain ⟨bs, ms, os, al, e⟩ := s.respond_eq m st detail data; rw [e]; rfl

@[simp] theorem State.respond_ringlog : (s.respond m st detail data).steward.ringlog = s.steward.ringlog := by
  obtain ⟨bs, ms, os, al, e⟩ := s.respond_eq m st detail data; rw [e]; rfl

@[simp] theorem State.respond_policyData : (s.respond m st detail data).policyData = s.policyData := by
  obtain ⟨bs, ms, os, al, e⟩ := s.respond_eq m st detail data; rw [e]; rfl

@[simp] theorem State.respond_log : (s.respond m st detail data).steward.log = s.steward.log := by
  obtain ⟨bs, ms, os, al, e⟩ := s.respond_eq m st detail data; rw [e]; rfl

@[simp] theorem State.respond_timer : (s.respond m st detail data).timer = s.timer := by
  obtain ⟨bs, ms, os, al, e⟩ := s.respond_eq m st detail data; rw [e]; rfl

@[simp] theorem State.respond_requests : (s.respond m st detail data).requests = s.requests := by
  obtain ⟨bs, ms, os, al, e⟩ := s.respond_eq m st detail data; rw [e]; rfl

@[simp] theorem State.respond_yard (y : Yard) : (s.respond m st detail data).yard y = s.yard y := by
  obtain ⟨bs, ms, os, al, e⟩ := s.respond_eq m st detail data; rw [e]; cases y <;> rfl

end Leaves

/-! ## The commands -/

/-- A request is not dispatched in the three phases of 14 Table 14.10. -/
theorem Request.waiting_iff (r : Request) : r.waiting = true ↔ Claims.Undispatched r := by
  unfold Request.waiting Request.queued_ Claims.Undispatched
  cases r.phase <;> simp

/-- The policy that `SET_POLICY` leaves, with a record of it. -/
def State.withPolicy (s : State) (req : List Byte) : State :=
  { s with steward := { s.steward with policy := Policy_apply s.steward.policy req } }.log 0x46 0 0 1 (policyMask req) 0

/-- The policy block of the boot flash as PERSIST writes it, with a record of it. -/
def State.persistPolicy (s : State) (req : List Byte) : State :=
  if (fieldLe req 0x16 1).testBit 0 then
    { s with steward := { s.steward with policyBlock := some s.steward.policy } }.log 0x46 0 0 2 (policyMask req) 0
  else s

/-- PERSIST writes the policy block and leaves the policy. -/
theorem State.persistPolicy_spec (s : State) (req : List Byte) :
    let t := s.persistPolicy req
    t.mailboxes = s.mailboxes ∧ t.steward.policy = s.steward.policy ∧ t.steward.ringlog = s.steward.ringlog ∧
      t.steward.policyBlock = if (fieldLe req 0x16 1).testBit 0 then some s.steward.policy else s.steward.policyBlock := by
  unfold State.persistPolicy
  split <;> exact ⟨rfl, rfl, rfl, rfl⟩

theorem exec_setPolicy {m : MboxId} {s : State} (ready : Claims.Ready s m 0x03) :
    let u := ((Claims.begun s m).withPolicy (s.mb m).req).persistPolicy (s.mb m).req
    exec (.setPolicy m) s = .next (u.respond m 0 0 u.policyData) := by
  refine congrArg Host.Outcome.next ((State.command_ready ready rfl).trans ?_)
  rfl

/-- The sweep that `SCRUB_CTL` sets in the yards named. -/
theorem State.sweep_eq (s : State) (mask hours : Nat) :
    (namedYards mask).foldl (fun s y => s.modYard y fun k => { k with sweepHours := hours }) s =
      { s with yardA := { s.yardA with sweepHours := if mask.testBit 0 then hours else s.yardA.sweepHours }
               yardB := { s.yardB with sweepHours := if mask.testBit 1 then hours else s.yardB.sweepHours } } := by
  cases ha : mask.testBit 0 <;> cases hb : mask.testBit 1 <;> simp [namedYards, bothYards, yardNum, ha, hb, State.modYard]

/-- The part of O41 on the commands that report and set. -/
theorem reportAndSetCommands : Claims.ReportAndSetCommands := by
  intro m s f
  refine ⟨reportedData s, fun ready => ?identify, fun ready => ?status, Request.waiting_iff, fun ready => ?setPolicy,
    fun ready => ?logRead, fun ready => ?timeSet, fun ready => ?scrubCtl⟩
  case identify => exact congrArg Host.Outcome.next (State.command_ready ready rfl)
  case status => exact congrArg Host.Outcome.next (State.command_ready ready rfl)
  case setPolicy =>
    refine ⟨_, exec_setPolicy ready, ?_⟩
    obtain ⟨mailboxes, policy, ringlog, block⟩ :=
      ((Claims.begun s m).withPolicy (s.mb m).req).persistPolicy_spec (s.mb m).req
    simp only [State.respond_policy, State.respond_policyBlock, State.respond_ringlog, State.respond_policyData, policy, ringlog, block]
    exact ⟨State.begun_answered mailboxes (.inl rfl), rfl, rfl, rfl, rfl, rfl, rfl⟩
  case logRead =>
    refine ⟨_, congrArg Host.Outcome.next (State.command_ready ready rfl), State.begun_answered rfl (.inl rfl), ?_⟩
    exact State.respond_log ..
  case timeSet =>
    refine ⟨_, congrArg Host.Outcome.next (State.command_ready ready rfl), State.begun_answered rfl (.inl rfl), ?_, ?_⟩
    · exact State.respond_timer ..
    · rw [State.respond_requests, State.respond_timer]; rfl
  case scrubCtl =>
    refine ⟨_, congrArg Host.Outcome.next (State.command_ready ready rfl), ?_⟩
    simp only [State.sweep_eq]
    refine ⟨State.begun_answered rfl (.inl rfl), fun y => ?_⟩
    rw [State.respond_yard]
    cases y <;> rfl

/-- Settles O41, part by part. -/
theorem mailboxesAndReports : Obligations.MailboxesAndReports := ⟨mailboxProtocol, reportAndSetCommands⟩

end Sys2Proof.Machine
end
